-- ==== Sys2Proof/Word.lean ====
section
/-! DEFINITION. The word and byte types of the DVCP core, and the form in which its fixed-size arrays are held. -/

namespace Sys2Proof

/-- A word: an unsigned 32-bit value (R9). Every register, memory word, stack entry, cache slot, port,
vector-table entry and BTB entry holds one. -/
abbrev Word := BitVec 32

/-- An 8-bit field of an instruction word (R59). -/
abbrev Byte := BitVec 8

/-- An array of the spec as plain data: the (index, value) pairs that differ from the array's default value, indices
strictly rising (log entry 4). `Machine/Ops.lean` reads and writes it and says when it is in this form. -/
abbrev Cells (α : Type) := List (Nat × α)

end Sys2Proof
end

