-- ==== Sys2Proof/Config.lean ====
section
/-! DEFINITION. What an implementation of the DVCP core fixes: the configuration record of R7 and the launch
parameters of R8, as types. Their default values stand in `Machine/Launch.lean`, the default opcode map in `Decode.lean`. -/

namespace Sys2Proof

/-- The two configurations of the address translator, `cfg.mode` of R3. -/
inductive Scheme where
  | paged
  | flat
deriving DecidableEq, Repr

/-- The kind of one memory access (R41). -/
inductive AccessKind where
  | read
  | write
  | execute
deriving DecidableEq, Repr

/-- A set of access kinds: the permissions of a page (R24), and the kinds a protected address refuses in FLAT
(`PROT_DENIES`, R51). -/
structure KindSet where
  read : Bool
  write : Bool
  execute : Bool
deriving DecidableEq, Repr

/-- The instructions an opcode value can name (R62), in the order of the source's opcode table. SYS is one opcode
with two sub-operations (R66). -/
inductive Opcode where
  | load
  | store
  | add
  | sub
  | mul
  | div
  | jump
  | jumpIfZero
  | push
  | pop
  | call
  | ret
  | sys
  | cacheRead
  | cacheWrite
  | privileged
  | enterPrivileged
  | exitPrivileged
  | inPort
  | outPort
  | int
deriving DecidableEq, Repr

/-- `OPCODE_MAP` of R7 and R62: the 8-bit opcode value of each mnemonic. -/
structure OpcodeMap where
  load : Byte
  store : Byte
  add : Byte
  sub : Byte
  mul : Byte
  div : Byte
  jump : Byte
  jumpIfZero : Byte
  push : Byte
  pop : Byte
  call : Byte
  ret : Byte
  sys : Byte
  cacheRead : Byte
  cacheWrite : Byte
  privileged : Byte
  enterPrivileged : Byte
  exitPrivileged : Byte
  inPort : Byte
  outPort : Byte
  int : Byte
deriving DecidableEq, Repr

/-- The configuration record `cfg` of R7, field by field. `XLEN` is 32 in the type `Word`. `ptSize` and `pageSize`
are read in PAGED only, `protDenies` in FLAT only. -/
structure Config where
  /-- `cfg.mode` -/
  scheme : Scheme
  /-- `NUM_REGS` -/
  numRegs : Nat
  /-- `MEM_SIZE`, in words -/
  memSize : Nat
  /-- `PT_SIZE`, the number of virtual-page indices -/
  ptSize : Nat
  /-- `PAGE_SIZE`, in words -/
  pageSize : Nat
  /-- `STACK_DEPTH` -/
  stackDepth : Nat
  /-- `MAX_INSTR`, the default budget of `run` -/
  maxInstr : Word
  /-- `PRED_SIZE` -/
  predSize : Nat
  /-- `BTB_SIZE` -/
  btbSize : Nat
  /-- `CACHE_SLOTS` -/
  cacheSlots : Nat
  /-- `NUM_PORTS` -/
  numPorts : Nat
  /-- `IVT_SIZE` -/
  ivtSize : Nat
  /-- `OPCODE_MAP` -/
  opcodeMap : OpcodeMap
  /-- `PROT_DENIES(kind)` -/
  protDenies : KindSet
deriving DecidableEq, Repr

/-- The launch parameters of R8: initial contents that no operation can set. -/
structure LaunchParams where
  /-- `ivtInit`, default value 0 -/
  ivtInit : Cells Word
  /-- `predInit`, default value not-taken -/
  predInit : Cells Bool
  /-- `protInit`, default value unprotected -/
  protInit : Cells Bool
deriving DecidableEq, Repr

end Sys2Proof
end

