-- ==== Sys2Proof/Syntax.lean ====
section
/-! DEFINITION. The instructions of the DVCP core as syntax: one constructor per row of the opcode table. -/

namespace Sys2Proof

/-- An instruction with the fields it uses (R61). A field keeps its 8-bit value as it stands in the word: whether it
names a register, a slot, a port or a vector is checked when the instruction executes. Unused fields are not kept (R65). -/
inductive Instr where
  /-- LOAD rA, [rB] (R74): `o1` destination register, `o2` address register. -/
  | load (o1 o2 : Byte)
  /-- STORE rA, [rB] (R75): `o1` value register, `o2` address register. -/
  | store (o1 o2 : Byte)
  /-- ADD rA, rB (R77): `o1` destination and first source, `o2` second source. -/
  | add (o1 o2 : Byte)
  /-- SUB rA, rB (R78). -/
  | sub (o1 o2 : Byte)
  /-- MUL rA, rB (R79). -/
  | mul (o1 o2 : Byte)
  /-- DIV rA, rB (R80). -/
  | div (o1 o2 : Byte)
  /-- JUMP rA (R83): `o1` target register. -/
  | jump (o1 : Byte)
  /-- JUMP_IF_ZERO rA, rB (R84): `o1` condition register, `o2` target register. -/
  | jumpIfZero (o1 o2 : Byte)
  /-- PUSH rA (R88): `o1` source register. -/
  | push (o1 : Byte)
  /-- POP rA (R89): `o1` destination register. -/
  | pop (o1 : Byte)
  /-- CALL rA (R90): `o1` target register. -/
  | call (o1 : Byte)
  /-- RET (R91). -/
  | ret
  /-- SYS 0x01, rB (R94): `o2` register to report. -/
  | sysReg (o2 : Byte)
  /-- SYS 0x02, imm (R95): `o2` immediate virtual address. -/
  | sysMem (o2 : Byte)
  /-- CACHE_READ slot, [rB] (R98): `o1` cache slot, `o2` address register. -/
  | cacheRead (o1 o2 : Byte)
  /-- CACHE_WRITE slot, [rB] (R99): `o1` cache slot, `o2` address register. -/
  | cacheWrite (o1 o2 : Byte)
  /-- PRIVILEGED (R100). -/
  | privileged
  /-- ENTER_PRIVILEGED (R101). -/
  | enterPrivileged
  /-- EXIT_PRIVILEGED (R102). -/
  | exitPrivileged
  /-- IN rA, port (R103): `o1` destination register, `o2` port number. -/
  | inPort (o1 o2 : Byte)
  /-- OUT rA, port (R104): `o1` source register, `o2` port number. -/
  | outPort (o1 o2 : Byte)
  /-- INT n (R106): `o1` interrupt number. -/
  | int (o1 : Byte)
deriving DecidableEq, Repr

end Sys2Proof
end

