-- ==== Sys2Proof/Decode.lean ====
section
/-! DEFINITION. The Instruction Codec: the fields of an instruction word, the opcode map, the decoder (total, rejecting
by name) and the encoder. -/

namespace Sys2Proof

/-- The four 8-bit fields of an instruction word (R59). -/
structure Fields where
  op : Byte
  o1 : Byte
  o2 : Byte
  o3 : Byte
deriving DecidableEq, Repr

/-- `Decode(w)` of R59: fixed bit slicing, opcode in bits 31:24. -/
def fieldsOf (w : Word) : Fields :=
  { op := w.extractLsb' 24 8, o1 := w.extractLsb' 16 8, o2 := w.extractLsb' 8 8, o3 := w.extractLsb' 0 8 }

/-- `w = op ++ o1 ++ o2 ++ o3` (R59). -/
def packFields (f : Fields) : Word := f.op ++ f.o1 ++ f.o2 ++ f.o3

/-- Every opcode, in the order of the source's table (R62). -/
def Opcode.all : List Opcode :=
  [.load, .store, .add, .sub, .mul, .div, .jump, .jumpIfZero, .push, .pop, .call, .ret, .sys, .cacheRead, .cacheWrite,
   .privileged, .enterPrivileged, .exitPrivileged, .inPort, .outPort, .int]

/-- The default `OPCODE_MAP` (R62). -/
def defaultOpcodeMap : OpcodeMap :=
  { load := 0x01, store := 0x02, add := 0x03, sub := 0x04, mul := 0x05, div := 0x06, jump := 0x07, jumpIfZero := 0x08,
    push := 0x09, pop := 0x0A, call := 0x0B, ret := 0x0C, sys := 0x0D, cacheRead := 0x0E, cacheWrite := 0x0F,
    privileged := 0x10, enterPrivileged := 0x11, exitPrivileged := 0x12, inPort := 0x13, outPort := 0x14, int := 0x15 }

/-- The opcode value a map gives a mnemonic. -/
def OpcodeMap.code (m : OpcodeMap) : Opcode → Byte
  | .load => m.load
  | .store => m.store
  | .add => m.add
  | .sub => m.sub
  | .mul => m.mul
  | .div => m.div
  | .jump => m.jump
  | .jumpIfZero => m.jumpIfZero
  | .push => m.push
  | .pop => m.pop
  | .call => m.call
  | .ret => m.ret
  | .sys => m.sys
  | .cacheRead => m.cacheRead
  | .cacheWrite => m.cacheWrite
  | .privileged => m.privileged
  | .enterPrivileged => m.enterPrivileged
  | .exitPrivileged => m.exitPrivileged
  | .inPort => m.inPort
  | .outPort => m.outPort
  | .int => m.int

/-- The map is injective: no two mnemonics share an opcode value (R7). -/
abbrev OpcodeMap.Injective (m : OpcodeMap) : Prop := (Opcode.all.map m.code).Nodup

/-- The constraints R7 puts on a map: injective, and ADD is 0x03. -/
abbrev OpcodeMap.wf (m : OpcodeMap) : Prop := m.Injective ∧ m.add = 0x03

/-- The mnemonic an opcode value names, if any (R63). -/
def OpcodeMap.lookup (m : OpcodeMap) (op : Byte) : Option Opcode := Opcode.all.find? (fun o => m.code o == op)

/-- Why a word is no instruction. Both reasons raise InvalidOpcode when the word is executed (R64, R66). -/
inductive DecodeError where
  /-- The opcode value names no instruction (R64). -/
  | noOpcode (op : Byte)
  /-- A SYS word whose `o1` is neither 0x01 nor 0x02 (R66). -/
  | noSysSubOp (o1 : Byte)
deriving DecidableEq, Repr

/-- The instruction a mnemonic stands for, with the fields it uses (R61, R66). Unused fields are ignored (R65). -/
def instrOf : Opcode → Fields → Except DecodeError Instr
  | .load, f => .ok (.load f.o1 f.o2)
  | .store, f => .ok (.store f.o1 f.o2)
  | .add, f => .ok (.add f.o1 f.o2)
  | .sub, f => .ok (.sub f.o1 f.o2)
  | .mul, f => .ok (.mul f.o1 f.o2)
  | .div, f => .ok (.div f.o1 f.o2)
  | .jump, f => .ok (.jump f.o1)
  | .jumpIfZero, f => .ok (.jumpIfZero f.o1 f.o2)
  | .push, f => .ok (.push f.o1)
  | .pop, f => .ok (.pop f.o1)
  | .call, f => .ok (.call f.o1)
  | .ret, _ => .ok .ret
  | .sys, f =>
    if f.o1 = 0x01 then .ok (.sysReg f.o2) else if f.o1 = 0x02 then .ok (.sysMem f.o2) else .error (.noSysSubOp f.o1)
  | .cacheRead, f => .ok (.cacheRead f.o1 f.o2)
  | .cacheWrite, f => .ok (.cacheWrite f.o1 f.o2)
  | .privileged, _ => .ok .privileged
  | .enterPrivileged, _ => .ok .enterPrivileged
  | .exitPrivileged, _ => .ok .exitPrivileged
  | .inPort, f => .ok (.inPort f.o1 f.o2)
  | .outPort, f => .ok (.outPort f.o1 f.o2)
  | .int, f => .ok (.int f.o1)

/-- The decoder (R63): total, and a function of the word and the opcode map alone. -/
def decode (m : OpcodeMap) (w : Word) : Except DecodeError Instr :=
  match m.lookup (fieldsOf w).op with
  | some o => instrOf o (fieldsOf w)
  | none => .error (.noOpcode (fieldsOf w).op)

/-- The mnemonic of an instruction; both SYS rows have the opcode SYS. -/
def Instr.opcode : Instr → Opcode
  | .load _ _ => .load
  | .store _ _ => .store
  | .add _ _ => .add
  | .sub _ _ => .sub
  | .mul _ _ => .mul
  | .div _ _ => .div
  | .jump _ => .jump
  | .jumpIfZero _ _ => .jumpIfZero
  | .push _ => .push
  | .pop _ => .pop
  | .call _ => .call
  | .ret => .ret
  | .sysReg _ => .sys
  | .sysMem _ => .sys
  | .cacheRead _ _ => .cacheRead
  | .cacheWrite _ _ => .cacheWrite
  | .privileged => .privileged
  | .enterPrivileged => .enterPrivileged
  | .exitPrivileged => .exitPrivileged
  | .inPort _ _ => .inPort
  | .outPort _ _ => .outPort
  | .int _ => .int

/-- The operand fields of an instruction's word, 0 where the instruction does not use the field (R65, R71). -/
def Instr.operands : Instr → Byte × Byte
  | .load o1 o2 => (o1, o2)
  | .store o1 o2 => (o1, o2)
  | .add o1 o2 => (o1, o2)
  | .sub o1 o2 => (o1, o2)
  | .mul o1 o2 => (o1, o2)
  | .div o1 o2 => (o1, o2)
  | .jump o1 => (o1, 0)
  | .jumpIfZero o1 o2 => (o1, o2)
  | .push o1 => (o1, 0)
  | .pop o1 => (o1, 0)
  | .call o1 => (o1, 0)
  | .ret => (0, 0)
  | .sysReg o2 => (0x01, o2)
  | .sysMem o2 => (0x02, o2)
  | .cacheRead o1 o2 => (o1, o2)
  | .cacheWrite o1 o2 => (o1, o2)
  | .privileged => (0, 0)
  | .enterPrivileged => (0, 0)
  | .exitPrivileged => (0, 0)
  | .inPort o1 o2 => (o1, o2)
  | .outPort o1 o2 => (o1, o2)
  | .int o1 => (o1, 0)

/-- The encoder (R71): the word of an instruction, with 0 in its unused fields. -/
def encode (m : OpcodeMap) (i : Instr) : Word :=
  packFields { op := m.code i.opcode, o1 := i.operands.1, o2 := i.operands.2, o3 := 0 }

/-- Masks of the fields an instruction uses besides its opcode: both operands, the first only, none (R61). -/
def maskTwo : Fields := { op := 0xFF, o1 := 0xFF, o2 := 0xFF, o3 := 0 }
def maskOne : Fields := { op := 0xFF, o1 := 0xFF, o2 := 0, o3 := 0 }
def maskNone : Fields := { op := 0xFF, o1 := 0, o2 := 0, o3 := 0 }

/-- The fields of a word that an instruction uses, as masks (R61). The sub-op selector of SYS is used. -/
def Instr.usedFields : Instr → Fields
  | .load _ _ => maskTwo
  | .store _ _ => maskTwo
  | .add _ _ => maskTwo
  | .sub _ _ => maskTwo
  | .mul _ _ => maskTwo
  | .div _ _ => maskTwo
  | .jump _ => maskOne
  | .jumpIfZero _ _ => maskTwo
  | .push _ => maskOne
  | .pop _ => maskOne
  | .call _ => maskOne
  | .ret => maskNone
  | .sysReg _ => maskTwo
  | .sysMem _ => maskTwo
  | .cacheRead _ _ => maskTwo
  | .cacheWrite _ _ => maskTwo
  | .privileged => maskNone
  | .enterPrivileged => maskNone
  | .exitPrivileged => maskNone
  | .inPort _ _ => maskTwo
  | .outPort _ _ => maskTwo
  | .int _ => maskOne

/-- The bits of a word that an instruction uses; the others are ignored (R65). -/
def Instr.usedBits (i : Instr) : Word := packFields i.usedFields

/-- The word whose low `nbits` bits are those of `w` and whose other bits are 0. -/
def tableWord (nbits w : Nat) : Word := BitVec.ofNat 32 (w % 2 ^ nbits)

/-- The instruction the decoder reads, under the default opcode map, from an instruction of the opcode table: an
instruction is one 32-bit word (R60), so `nbits` above 32 is none. -/
def decodeTableWord (nbits w : Nat) : Option Instr :=
  if nbits ≤ 32 then (decode defaultOpcodeMap (tableWord nbits w)).toOption else none

end Sys2Proof
end

