-- ==== Sys2Proof/Machine/Launch.lean ====
section
/-! DEFINITION. The default configurations and launch parameters (R7, R8), and the constraints a configuration must
meet. -/

namespace Sys2Proof

/-- The set that holds every access kind. -/
def KindSet.all : KindSet := { read := true, write := true, execute := true }

/-- Membership of an access kind in a set. -/
def KindSet.has (p : KindSet) : AccessKind → Bool
  | .read => p.read
  | .write => p.write
  | .execute => p.execute

/-- The default PAGED configuration, the PAGED column of R7. -/
def Config.paged : Config :=
  { scheme := .paged, numRegs := 16, memSize := 2048, ptSize := 256, pageSize := 256, stackDepth := 10, maxInstr := 100,
    predSize := 16, btbSize := 16, cacheSlots := 256, numPorts := 16, ivtSize := 16, opcodeMap := defaultOpcodeMap,
    protDenies := KindSet.all }

/-- The default FLAT configuration, the FLAT column of R7. `ptSize` and `pageSize`, which R7 gives FLAT no value for,
are not read in FLAT. -/
def Config.flat : Config :=
  { scheme := .flat, numRegs := 8, memSize := 1024, ptSize := 256, pageSize := 256, stackDepth := 10, maxInstr := 100,
    predSize := 16, btbSize := 16, cacheSlots := 256, numPorts := 16, ivtSize := 16, opcodeMap := defaultOpcodeMap,
    protDenies := KindSet.all }

/-- The constraints of R7: every size at least 1, the opcode map injective with ADD at 0x03, and the register count
and memory size the values the source fixes for the scheme. -/
abbrev Config.wf (cfg : Config) : Prop :=
  cfg.numRegs = (match cfg.scheme with | .paged => 16 | .flat => 8) ∧
  cfg.memSize = (match cfg.scheme with | .paged => 2048 | .flat => 1024) ∧
  1 ≤ cfg.ptSize ∧ 1 ≤ cfg.pageSize ∧ 1 ≤ cfg.stackDepth ∧ 1 ≤ cfg.predSize ∧ 1 ≤ cfg.btbSize ∧ 1 ≤ cfg.cacheSlots ∧
  1 ≤ cfg.numPorts ∧ 1 ≤ cfg.ivtSize ∧ cfg.opcodeMap.wf

/-- The default launch parameters of R8: every vector 0, every predictor slot not-taken, no address protected. -/
def LaunchParams.default : LaunchParams := { ivtInit := [], predInit := [], protInit := [] }

end Sys2Proof
end

