-- ==== Sys2Proof/Machine/State.lean ====
section
/-! DEFINITION. The state of the DVCP core as plain data (R15), the faults it raises (R109), the refusals of the model,
and the state after reset (R38, R129). -/

namespace Sys2Proof.Machine

/-- The execution mode (R20). -/
inductive Mode where
  | user
  | privileged
deriving DecidableEq, Repr

/-- A page-table entry (R24). An absent slot of the page table is no entry at all. -/
structure PageEntry where
  physicalPage : Word
  permissions : KindSet
deriving DecidableEq, Repr

/-- Physical memory (R23): words at word addresses. The smallest unit the core addresses is the word (R52), so a cell
holds a word (log entry 4). -/
abbrev Memory := Cells Word

/-- The twelve faults of R109, in its order. A fault records its kind only. The step that raises one changes no state
(R110) and ends the run (R112), so each is safe: the machine stops where the spec stops it. -/
inductive Fault where
  /-- Physical address (PAGED) or virtual address (FLAT) at or above MEM_SIZE, raised by address translation. Cache
  slot at or above CACHE_SLOTS, raised by CACHE_READ and CACHE_WRITE. Safe: the spec's own fault. -/
  | outOfRangeMemory
  /-- Virtual page at or above PT_SIZE, raised by PAGED translation and by `mapPage`. Safe: the spec's own fault. -/
  | outOfRangePage
  /-- No page-table entry for the virtual page, raised by PAGED translation. Safe: the spec's own fault. -/
  | pageFault
  /-- Access kind not permitted, raised by address translation. Safe: the spec's own fault. -/
  | permissionFault
  /-- PRIVILEGED in User mode. Safe: the spec's own fault. -/
  | privilegeFault
  /-- Push onto a full operand stack, raised by PUSH, CALL and INT. Safe: the spec's own fault. -/
  | stackOverflow
  /-- Pop from an empty operand stack, raised by POP and RET. Safe: the spec's own fault. -/
  | stackUnderflow
  /-- DIV by zero. Safe: the spec's own fault. -/
  | divisionByZero
  /-- A word that is no instruction, raised by the step after a successful fetch (R64, R96). Safe: the spec's own fault. -/
  | invalidOpcode
  /-- A register field at or above NUM_REGS, raised by every instruction with a register operand (R17). Safe: the
  spec's own fault. -/
  | invalidRegister
  /-- A port field at or above NUM_PORTS, raised by IN and OUT. Safe: the spec's own fault. -/
  | outOfRangePort
  /-- An interrupt number at or above IVT_SIZE, raised by INT. Safe: the spec's own fault. -/
  | outOfRangeInterrupt
deriving DecidableEq, Repr

/-- What the model declines to do. No instruction is refused. -/
inductive Refusal where
  /-- An instruction without a meaning, raised by `exec`'s arms only. No arm raises it. Safe: the model stops. -/
  | notModelled (mnemonic : String)
  /-- `mapPage` in FLAT, which has no such operation (R47), raised by the host operation `mapPage`. Safe: the spec
  admits no such move. -/
  | noMapPageInFlat
deriving DecidableEq, Repr

/-- The core state of R15. The arrays whose size the configuration gives are `Cells` (log entry 4): an index that is not
listed holds the array's default value, which is its reset value in R38. -/
structure State where
  /-- The configuration record `cfg` (R7): the model's own field (R34 makes it a parameter of the step relation). No
  step and no host operation changes it (log entry 1). -/
  cfg : Config
  /-- `X`: the general registers (R16), default 0. -/
  x : Cells Word
  /-- `pc`: the program counter (R18, R19). -/
  pc : Word
  /-- `mode`: the execution mode (R20). -/
  mode : Mode
  /-- `ICOUNT`: the number of steps completed since reset (R21). -/
  icount : Nat
  /-- `MEM`: physical memory (R23), default 0. -/
  mem : Memory
  /-- `PT`: the page table (R24), default absent. Nothing is mapped in FLAT. -/
  pt : Cells (Option PageEntry)
  /-- `OS`: the operand stack, top last (R25). -/
  os : List Word
  /-- `RAS`: the return-address stack, top last (R26). -/
  ras : List Word
  /-- `PRED`: the predictor bits, true for taken (R27), default not-taken. -/
  pred : Cells Bool
  /-- `BTB`: the branch-target buffer (R28), default 0. -/
  btb : Cells Word
  /-- `CACHE`: the scratch cache (R29), default 0. -/
  cache : Cells Word
  /-- `PORTS`: the I/O ports (R30), default 0. -/
  ports : Cells Word
  /-- `IVT`: the interrupt vector table (R31), default 0. -/
  ivt : Cells Word
  /-- `PROT`: the protection bits (R32), default unprotected. Nothing is protected in PAGED. -/
  prot : Cells Bool
  /-- `SYSOUT`: the words SYS reported, oldest first (R36). -/
  sysout : List Word
deriving DecidableEq, Repr

/-- Construction of the core (R129): every field at its value in R38, for a configuration and launch parameters. -/
def State.construct (cfg : Config) (launch : LaunchParams) : State :=
  { cfg := cfg, x := [], pc := 0, mode := .user, icount := 0, mem := [], pt := [], os := [], ras := [],
    pred := launch.predInit, btb := [], cache := [], ports := [], ivt := launch.ivtInit,
    prot := match cfg.scheme with | .paged => [] | .flat => launch.protInit,
    sysout := [] }

/-- The machine right after reset: the PAGED configuration with the default parameters (log entry 2). -/
def State.reset : State := State.construct Config.paged LaunchParams.default

end Sys2Proof.Machine
end

