-- ==== Sys2Proof/Machine/Ops.lean ====
section
/-! DEFINITION. The named operations over the arrays of the state, memory, registers, stacks, predictor, BTB, cache,
ports and the SYS report list, interrupt entry and the return from it, and how a step's checks become its outcome. -/

namespace Sys2Proof.Machine

/-! ### Arrays held as cells -/

/-- The value at an index: the listed one, else the array's default `d`. -/
def cellAt {α : Type} (d : α) : Cells α → Nat → α
  | [], _ => d
  | (k, v) :: rest, j => if k = j then v else cellAt d rest j

/-- Put a new cell before the first cell of a greater index. -/
def cellInsert {α : Type} (k : Nat) (v : α) : Cells α → Cells α
  | [] => [(k, v)]
  | (j, u) :: rest => if k < j then (k, v) :: (j, u) :: rest else (j, u) :: cellInsert k v rest

/-- Write index `k`. Writing the default value removes the cell, so that equal arrays are equal data. -/
def cellSet {α : Type} [DecidableEq α] (d : α) (c : Cells α) (k : Nat) (v : α) : Cells α :=
  if v = d then c.filter (fun p => decide (p.1 ≠ k)) else cellInsert k v (c.filter (fun p => decide (p.1 ≠ k)))

/-- The canonical form: indices strictly rising, and no cell that holds the default value. -/
abbrev CellsCanonical {α : Type} [DecidableEq α] (d : α) (c : Cells α) : Prop :=
  c.Pairwise (fun p q => p.1 < q.1) ∧ ∀ p ∈ c, p.2 ≠ d

/-- Every listed index is below the array's size. -/
abbrev CellsBelow {α : Type} (n : Nat) (c : Cells α) : Prop := ∀ p ∈ c, p.1 < n

/-! ### Memory (R39) -/

/-- What a memory word that nothing has written reads as: 0, its reset value (R38). -/
def Memory.unlisted : Word := 0

/-- Memory is in its canonical form. -/
abbrev Memory.wf (m : Memory) : Prop := CellsCanonical Memory.unlisted m

/-- `MemRead(pa, 1)` of R39. Every instruction gets `pa` from `translateAddr`, which answers below MEM_SIZE. -/
def State.memRead (s : State) (pa : Nat) : Word := cellAt Memory.unlisted s.mem pa

/-- `MemWrite(pa, 1, v)` of R39. -/
def State.memWrite (s : State) (pa : Nat) (v : Word) : State := { s with mem := cellSet Memory.unlisted s.mem pa v }

/-! ### Registers, program counter, mode (R16, R18, R20) -/

/-- `x[i]` (R16). No register is hardwired. -/
def State.reg (s : State) (i : Nat) : Word := cellAt 0 s.x i

/-- `x[i] <- v` (R16). -/
def State.setReg (s : State) (i : Nat) (v : Word) : State := { s with x := cellSet 0 s.x i v }

/-- `pc <- v` (R18). -/
def State.setPc (s : State) (v : Word) : State := { s with pc := v }

/-- `mode <- m` (R20). -/
def State.setMode (s : State) (m : Mode) : State := { s with mode := m }

/-- One more step completed (R21). -/
def State.countStep (s : State) : State := { s with icount := s.icount + 1 }

/-! ### Page table and protection bits (R24, R32) -/

/-- `PT[vp]`: the entry of a virtual page, none when it is absent. -/
def State.pageEntry (s : State) (vp : Nat) : Option PageEntry := cellAt none s.pt vp

/-- `PT[vp] <- e`. -/
def State.setPage (s : State) (vp : Nat) (e : Option PageEntry) : State := { s with pt := cellSet none s.pt vp e }

/-- `PROT[a]`. -/
def State.protBit (s : State) (a : Nat) : Bool := cellAt false s.prot a

/-- `PROT[a] <- b`. No instruction and no host operation does it (R32): it is used to place a fetch word only. -/
def State.setProt (s : State) (a : Nat) (b : Bool) : State := { s with prot := cellSet false s.prot a b }

/-! ### Stacks (R87) -/

/-- The check of `pushOS`: StackOverflow when the operand stack is at its depth limit (log entry 6). -/
def checkRoom (s : State) : Except Fault Unit :=
  if s.os.length < s.cfg.stackDepth then .ok () else .error .stackOverflow

/-- `OS <- OS ++ [v]`, top last. -/
def State.appendOS (s : State) (v : Word) : State := { s with os := s.os ++ [v] }

/-- `OS` without its top. -/
def State.dropOS (s : State) : State := { s with os := s.os.dropLast }

/-- `pushOS(v)` of R87. -/
def pushOS (s : State) (v : Word) : Except Fault State := do
  checkRoom s
  pure (s.appendOS v)

/-- `popOS()` of R87: the popped word, and the state without it. -/
def popOS (s : State) : Except Fault (Word × State) :=
  match s.os.getLast? with
  | some v => .ok (v, s.dropOS)
  | none => .error .stackUnderflow

/-- `pushRAS(v)` of R87: never faults. -/
def State.pushRAS (s : State) (v : Word) : State := { s with ras := s.ras ++ [v] }

/-- `dropRAS()` of R87: drops the top if there is one, and never faults. -/
def State.dropRAS (s : State) : State := { s with ras := s.ras.dropLast }

/-! ### Predictor and branch-target buffer (R81, R82) -/

/-- The predictor slot of a JUMP_IF_ZERO: `pc mod PRED_SIZE` (R81). -/
def predSlot (s : State) : Nat := s.pc.toNat % s.cfg.predSize

/-- `PRED[slot] = 1`, predicted taken (R27). -/
def State.predTaken (s : State) (slot : Nat) : Bool := cellAt false s.pred slot

/-- `PRED[slot] <- 0`, reset to not-taken (R84). -/
def State.clearPred (s : State) (slot : Nat) : State := { s with pred := cellSet false s.pred slot false }

/-- `BTB[slot]` (R28). -/
def State.btbEntry (s : State) (slot : Nat) : Word := cellAt 0 s.btb slot

/-- `BTB[pc mod BTB_SIZE] <- pc` (R82). -/
def State.recordBranch (s : State) : State := { s with btb := cellSet 0 s.btb (s.pc.toNat % s.cfg.btbSize) s.pc }

/-! ### Cache slots, ports, vectors, reports (R29, R30, R31, R36) -/

/-- `CACHE[slot]`. -/
def State.cacheSlot (s : State) (slot : Nat) : Word := cellAt 0 s.cache slot

/-- `CACHE[slot] <- v`. -/
def State.setCache (s : State) (slot : Nat) (v : Word) : State := { s with cache := cellSet 0 s.cache slot v }

/-- `PORTS[p]`. -/
def State.port (s : State) (p : Nat) : Word := cellAt 0 s.ports p

/-- `PORTS[p] <- v`. -/
def State.setPort (s : State) (p : Nat) (v : Word) : State := { s with ports := cellSet 0 s.ports p v }

/-- `IVT[n]`. -/
def State.vector (s : State) (n : Nat) : Word := cellAt 0 s.ivt n

/-- `emit(v)` (R36). -/
def State.emit (s : State) (v : Word) : State := { s with sysout := s.sysout ++ [v] }

/-! ### Interrupt entry and return -/

/-- The range check of `handleInterrupt` (R105). -/
def checkVector (s : State) (n : Nat) : Except Fault Unit :=
  if n < s.cfg.ivtSize then .ok () else .error .outOfRangeInterrupt

/-- `handleInterrupt(n)` of R105, the one exception entry of this core (R116, R118): the range check, the push of the
return address, the vector to `pc` without translation, and Privileged mode. -/
def handleInterrupt (s : State) (n : Nat) : Except Fault State := do
  checkVector s n
  let s1 ← pushOS s s.pc
  pure ((s1.setPc (s.vector n)).setMode .privileged)

/-- The return from a call or an interrupt (R91, R107): pop `pc` from the operand stack and discard the top of the
return-address stack if there is one. The mode stays as it is. -/
def returnFromOS (s : State) : Except Fault State := do
  let (v, s1) ← popOS s
  pure (s1.dropRAS.setPc v)

/-! ### The outcome of a meaning -/

/-- A meaning runs its checks and writes: a raised fault is the step's outcome and leaves no change behind (R110). -/
def settle : Except Fault State → Host.Outcome State Fault Refusal
  | .ok s => .next s
  | .error f => .fault f

end Sys2Proof.Machine
end

