-- ==== Sys2Proof/Machine/Translate.lean ====
section
/-! DEFINITION. The address translator (R42): PAGED through the page table, FLAT through the protection bits. -/

namespace Sys2Proof.Machine

/-- `Translate_PAGED` of R43, its checks in the rule's order. The physical address is computed exactly (R46). -/
def translatePaged (s : State) (va : Word) (k : AccessKind) : Except Fault Nat :=
  if s.cfg.ptSize ≤ va.toNat / s.cfg.pageSize then .error .outOfRangePage
  else match s.pageEntry (va.toNat / s.cfg.pageSize) with
    | none => .error .pageFault
    | some e =>
      if e.permissions.has k = false then .error .permissionFault
      else if s.cfg.memSize ≤ e.physicalPage.toNat * s.cfg.pageSize + va.toNat % s.cfg.pageSize then
        .error .outOfRangeMemory
      else .ok (e.physicalPage.toNat * s.cfg.pageSize + va.toNat % s.cfg.pageSize)

/-- `Translate_FLAT` of R50: the bound, then the protection bit (R51). -/
def translateFlat (s : State) (va : Word) (k : AccessKind) : Except Fault Nat :=
  if s.cfg.memSize ≤ va.toNat then .error .outOfRangeMemory
  else if s.protBit va.toNat = true ∧ s.cfg.protDenies.has k = true then .error .permissionFault
  else .ok va.toNat

/-- `Translate(va, k)` of R42: a physical word address or a fault. It reads the state and changes nothing. -/
def translateAddr (s : State) (va : Word) (k : AccessKind) : Except Fault Nat :=
  match s.cfg.scheme with
  | .paged => translatePaged s va k
  | .flat => translateFlat s va k

end Sys2Proof.Machine
end

