-- ==== Sys2Proof/Machine/Operands.lean ====
section
/-! DEFINITION. The operand forms of R61: register index, register-indirect address, immediate address, cache slot,
port number, interrupt number. No field is sign-extended, scaled or shifted. -/

namespace Sys2Proof.Machine

/-- `CheckReg(o)` of R17. -/
def checkReg (s : State) (o : Byte) : Except Fault Unit :=
  if o.toNat < s.cfg.numRegs then .ok () else .error .invalidRegister

/-- `x[o]`, the register a field names. -/
def regOf (s : State) (o : Byte) : Word := s.reg o.toNat

/-- `x[o] <- v`. -/
def setRegOf (s : State) (o : Byte) (v : Word) : State := s.setReg o.toNat v

/-- The register-indirect address of R73: the virtual address is the whole word in the register. -/
def indirectAddress (s : State) (o : Byte) (k : AccessKind) : Except Fault Nat := translateAddr s (regOf s o) k

/-- The immediate address of SYS 0x02: the field zero-extended (R61, R95). -/
def immediateAddress (s : State) (o : Byte) (k : AccessKind) : Except Fault Nat := translateAddr s (o.setWidth 32) k

/-- `CheckSlot(o)` of R97. -/
def checkSlot (s : State) (o : Byte) : Except Fault Unit :=
  if o.toNat < s.cfg.cacheSlots then .ok () else .error .outOfRangeMemory

/-- The port check of IN and OUT (R103, R104). -/
def checkPort (s : State) (o : Byte) : Except Fault Unit :=
  if o.toNat < s.cfg.numPorts then .ok () else .error .outOfRangePort

/-- The word a translated target leaves in `pc`: the physical address itself (R85). -/
def targetWord (pa : Nat) : Word := BitVec.ofNat 32 pa

end Sys2Proof.Machine
end

