-- ==== Sys2Proof/Machine/Arith.lean ====
section
/-! DEFINITION. The ALU (R76 to R80): unsigned words, results modulo 2^32, no flags. -/

namespace Sys2Proof.Machine

/-- The sum of R77: the exact result reduced modulo 2^32. -/
def aluAdd (a b : Word) : Word := BitVec.ofNat 32 (a.toNat + b.toNat)

/-- The difference of R78: the exact result reduced modulo 2^32. -/
def aluSub (a b : Word) : Word := BitVec.ofInt 32 ((a.toNat : Int) - (b.toNat : Int))

/-- The product of R79: the low 32 bits of the exact product. -/
def aluMul (a b : Word) : Word := BitVec.ofNat 32 (a.toNat * b.toNat)

/-- The quotient of R80: unsigned, truncated toward zero. -/
def aluDiv (a b : Word) : Word := BitVec.ofNat 32 (a.toNat / b.toNat)

/-- The divisor check of R80. -/
def checkDivisor (b : Word) : Except Fault Unit := if b ≠ 0 then .ok () else .error .divisionByZero

/-- An ALU instruction (R76): both registers checked, both operands read before the result is written. -/
def aluOp (f : Word → Word → Word) (o1 o2 : Byte) (s : State) : Except Fault State := do
  checkReg s o1
  checkReg s o2
  pure (setRegOf s o1 (f (regOf s o1) (regOf s o2)))

/-- ADD rA, rB (R77). -/
def execAdd (o1 o2 : Byte) (s : State) : Host.Outcome State Fault Refusal := settle (aluOp aluAdd o1 o2 s)

/-- SUB rA, rB (R78). -/
def execSub (o1 o2 : Byte) (s : State) : Host.Outcome State Fault Refusal := settle (aluOp aluSub o1 o2 s)

/-- MUL rA, rB (R79). -/
def execMul (o1 o2 : Byte) (s : State) : Host.Outcome State Fault Refusal := settle (aluOp aluMul o1 o2 s)

/-- DIV rA, rB (R80). -/
def execDiv (o1 o2 : Byte) (s : State) : Host.Outcome State Fault Refusal := settle do
  checkReg s o1
  checkReg s o2
  checkDivisor (regOf s o2)
  pure (setRegOf s o1 (aluDiv (regOf s o1) (regOf s o2)))

end Sys2Proof.Machine
end

