-- ==== Sys2Proof/Machine/Flags.lean ====
section
/-! DEFINITION. The core has no condition flags (R22): no instruction computes or stores one. The one condition it
tests is whether a register is zero. -/

namespace Sys2Proof.Machine

/-- The real test of JUMP_IF_ZERO: `x[o1] = 0` (R22, R84). -/
def isZero (v : Word) : Bool := v == 0

end Sys2Proof.Machine
end

