-- ==== Sys2Proof/Machine/Branch.lean ====
section
/-! DEFINITION. Jumps, the branch predictor and the branch-target buffer (R81 to R86). -/

namespace Sys2Proof.Machine

/-- `pc <- Translate(x[o], Execute)`: the redirect that the jumps share. `pc` gets the physical address (R85). -/
def redirect (s : State) (o : Byte) : Except Fault State := do
  let pa ← indirectAddress s o .execute
  pure (s.setPc (targetWord pa))

/-- JUMP rA (R83): the target is translated, then the BTB records `pc`, which is `ia + 1`, then `pc` is written. -/
def execJump (o1 : Byte) (s : State) : Host.Outcome State Fault Refusal := settle do
  checkReg s o1
  let pa ← indirectAddress s o1 .execute
  pure (s.recordBranch.setPc (targetWord pa))

/-- The speculative redirect of R84: taken when the predictor slot of `pc` predicts taken (R81). -/
def speculate (s : State) (o : Byte) : Except Fault State :=
  if s.predTaken (predSlot s) = true then redirect s o else .ok s

/-- The real test of R84: the branch for a true condition, and the slot reset to not-taken for a false one. -/
def branchIfZero (s : State) (o1 o2 : Byte) (slot : Nat) : Except Fault State :=
  if isZero (regOf s o1) = true then redirect s o2 else .ok (s.clearPred slot)

/-- JUMP_IF_ZERO rA, rB (R84), the literal double evaluation: the speculative redirect of a slot predicted taken, then
the real test. A false condition clears the slot and does not undo the redirect. -/
def execJumpIfZero (o1 o2 : Byte) (s : State) : Host.Outcome State Fault Refusal := settle do
  checkReg s o1
  checkReg s o2
  let s1 ← speculate s o2
  branchIfZero s1 o1 o2 (predSlot s)

end Sys2Proof.Machine
end

