-- ==== Sys2Proof/Machine/Interrupt.lean ====
section
/-! DEFINITION. The interrupt instruction (R105 to R108). -/

namespace Sys2Proof.Machine

/-- INT n (R106): interrupt entry through the vector table. -/
def execInt (o1 : Byte) (s : State) : Host.Outcome State Fault Refusal := settle (handleInterrupt s o1.toNat)

end Sys2Proof.Machine
end

