-- ==== Sys2Proof/Machine/LoadStore.lean ====
section
/-! DEFINITION. Loads and stores (R73 to R75). -/

namespace Sys2Proof.Machine

/-- LOAD rA, [rB] (R74). -/
def execLoad (o1 o2 : Byte) (s : State) : Host.Outcome State Fault Refusal := settle do
  checkReg s o1
  checkReg s o2
  let pa ← indirectAddress s o2 .read
  pure (setRegOf s o1 (s.memRead pa))

/-- STORE rA, [rB] (R75). -/
def execStore (o1 o2 : Byte) (s : State) : Host.Outcome State Fault Refusal := settle do
  checkReg s o1
  checkReg s o2
  let pa ← indirectAddress s o2 .write
  pure (s.memWrite pa (regOf s o1))

end Sys2Proof.Machine
end

