-- ==== Sys2Proof/Machine/PrivilegeIo.lean ====
section
/-! DEFINITION. Privilege-mode instructions and I/O ports (R100 to R104). -/

namespace Sys2Proof.Machine

/-- The mode check of PRIVILEGED (R100), the one instruction the mode gates (R122). -/
def checkPrivileged (s : State) : Except Fault Unit :=
  match s.mode with
  | .user => .error .privilegeFault
  | .privileged => .ok ()

/-- PRIVILEGED (R100). -/
def execPrivileged (s : State) : Host.Outcome State Fault Refusal := settle do
  checkPrivileged s
  pure s

/-- ENTER_PRIVILEGED (R101): unconditional. -/
def execEnterPrivileged (s : State) : Host.Outcome State Fault Refusal := settle (pure (s.setMode .privileged))

/-- EXIT_PRIVILEGED (R102): unconditional. -/
def execExitPrivileged (s : State) : Host.Outcome State Fault Refusal := settle (pure (s.setMode .user))

/-- IN rA, port (R103). -/
def execIn (o1 o2 : Byte) (s : State) : Host.Outcome State Fault Refusal := settle do
  checkReg s o1
  checkPort s o2
  pure (setRegOf s o1 (s.port o2.toNat))

/-- OUT rA, port (R104). -/
def execOut (o1 o2 : Byte) (s : State) : Host.Outcome State Fault Refusal := settle do
  checkReg s o1
  checkPort s o2
  pure (s.setPort o2.toNat (regOf s o1))

end Sys2Proof.Machine
end

