-- ==== Sys2Proof/Machine/StackCall.lean ====
section
/-! DEFINITION. The operand stack, calls and returns (R87 to R92). -/

namespace Sys2Proof.Machine

/-- PUSH rA (R88). -/
def execPush (o1 : Byte) (s : State) : Host.Outcome State Fault Refusal := settle do
  checkReg s o1
  pushOS s (regOf s o1)

/-- POP rA (R89). -/
def execPop (o1 : Byte) (s : State) : Host.Outcome State Fault Refusal := settle do
  checkReg s o1
  let (v, s1) ← popOS s
  pure (setRegOf s1 o1 v)

/-- CALL rA (R90): the stack limit is checked before the target is translated. The return address is `pc`, which is
`ia + 1`, and goes onto both stacks. -/
def execCall (o1 : Byte) (s : State) : Host.Outcome State Fault Refusal := settle do
  checkReg s o1
  checkRoom s
  let pa ← indirectAddress s o1 .execute
  let s1 ← pushOS s s.pc
  pure ((s1.pushRAS s.pc).setPc (targetWord pa))

/-- RET (R91). The popped word goes to `pc` without translation and without a comparison with `RAS` (R92). -/
def execRet (s : State) : Host.Outcome State Fault Refusal := settle (returnFromOS s)

end Sys2Proof.Machine
end

