-- ==== Sys2Proof/Machine/SysCache.lean ====
section
/-! DEFINITION. The SYS report instruction and the slot-indexed cache (R93 to R99). -/

namespace Sys2Proof.Machine

/-- SYS 0x01, rB (R94): report a register. -/
def execSysReg (o2 : Byte) (s : State) : Host.Outcome State Fault Refusal := settle do
  checkReg s o2
  pure (s.emit (regOf s o2))

/-- SYS 0x02, imm (R95): report a memory word. -/
def execSysMem (o2 : Byte) (s : State) : Host.Outcome State Fault Refusal := settle do
  let pa ← immediateAddress s o2 .read
  pure (s.emit (s.memRead pa))

/-- CACHE_READ slot, [rB] (R98): memory word to cache slot. -/
def execCacheRead (o1 o2 : Byte) (s : State) : Host.Outcome State Fault Refusal := settle do
  checkReg s o2
  checkSlot s o1
  let pa ← indirectAddress s o2 .read
  pure (s.setCache o1.toNat (s.memRead pa))

/-- CACHE_WRITE slot, [rB] (R99): cache slot to memory word. -/
def execCacheWrite (o1 o2 : Byte) (s : State) : Host.Outcome State Fault Refusal := settle do
  checkReg s o2
  checkSlot s o1
  let pa ← indirectAddress s o2 .write
  pure (s.memWrite pa (s.cacheSlot o1.toNat))

end Sys2Proof.Machine
end

