-- ==== Sys2Proof/Machine/Dispatch.lean ====
section
/-! DEFINITION. The Execution Unit's dispatch (R69): one arm per instruction. The state it runs on is the one of the
execute phase, where `pc` holds `ia + 1` (R68). -/

namespace Sys2Proof.Machine

def exec (i : Instr) (s : State) : Host.Outcome State Fault Refusal :=
  match i with
  | .load o1 o2 => Sys2Proof.Machine.execLoad o1 o2 s
  | .store o1 o2 => Sys2Proof.Machine.execStore o1 o2 s
  | .add o1 o2 => Sys2Proof.Machine.execAdd o1 o2 s
  | .sub o1 o2 => Sys2Proof.Machine.execSub o1 o2 s
  | .mul o1 o2 => Sys2Proof.Machine.execMul o1 o2 s
  | .div o1 o2 => Sys2Proof.Machine.execDiv o1 o2 s
  | .jump o1 => Sys2Proof.Machine.execJump o1 s
  | .jumpIfZero o1 o2 => Sys2Proof.Machine.execJumpIfZero o1 o2 s
  | .push o1 => Sys2Proof.Machine.execPush o1 s
  | .pop o1 => Sys2Proof.Machine.execPop o1 s
  | .call o1 => Sys2Proof.Machine.execCall o1 s
  | .ret => Sys2Proof.Machine.execRet s
  | .sysReg o2 => Sys2Proof.Machine.execSysReg o2 s
  | .sysMem o2 => Sys2Proof.Machine.execSysMem o2 s
  | .cacheRead o1 o2 => Sys2Proof.Machine.execCacheRead o1 o2 s
  | .cacheWrite o1 o2 => Sys2Proof.Machine.execCacheWrite o1 o2 s
  | .privileged => Sys2Proof.Machine.execPrivileged s
  | .enterPrivileged => Sys2Proof.Machine.execEnterPrivileged s
  | .exitPrivileged => Sys2Proof.Machine.execExitPrivileged s
  | .inPort o1 o2 => Sys2Proof.Machine.execIn o1 o2 s
  | .outPort o1 o2 => Sys2Proof.Machine.execOut o1 o2 s
  | .int o1 => Sys2Proof.Machine.execInt o1 s

end Sys2Proof.Machine
end

