-- ==== Sys2Proof/Machine/Fetch.lean ====
section
/-! DEFINITION. Fetch and what a step does around the execute phase (R67, R68, R115), and where an instruction is placed
so that the next step fetches it. -/

namespace Sys2Proof.Machine

/-- Fetch (R67): the word at `pc`, translated for Execute. -/
def fetch (s : State) : Except Fault Word := do
  let pa ← translateAddr s s.pc .execute
  pure (s.memRead pa)

/-- `pc <- (ia + 1) mod 2^32` (R68): the state the execute phase sees. -/
def advance (s : State) : State := s.setPc (s.pc + 1)

/-- The end of a step (R115): a completed step adds 1 to ICOUNT. A fault changes nothing (R110). -/
def retire : Host.Outcome State Fault Refusal → Host.Outcome State Fault Refusal
  | .next s => .next s.countStep
  | .fault f => .fault f
  | .refused r => .refused r

/-- The execute phase of a fetched word (R63, R64, R69): a word that is no instruction raises InvalidOpcode. -/
def executeWord (run : Instr → State → Host.Outcome State Fault Refusal) (s : State) (w : Word) :
    Host.Outcome State Fault Refusal :=
  match decode s.cfg.opcodeMap w with
  | .ok i => retire (run i (advance s))
  | .error _ => .fault .invalidOpcode

/-- The page-table entry of the spec's standard start: a physical page with every permission (spec section 95, S0). -/
def openPage (pp : Nat) : PageEntry := { physicalPage := BitVec.ofNat 32 pp, permissions := KindSet.all }

/-- `s` with the address of `pc` made fetchable, as the boot of R133 does it: its page mapped to the physical page of the
same number, or its protection bit clear. A `pc` that no mapping can make fetchable goes to 0, the boot address. -/
def openFetch (s : State) : State :=
  match s.cfg.scheme with
  | .paged =>
    if s.pc.toNat < s.cfg.memSize ∧ s.pc.toNat / s.cfg.pageSize < s.cfg.ptSize then
      s.setPage (s.pc.toNat / s.cfg.pageSize) (some (openPage (s.pc.toNat / s.cfg.pageSize)))
    else (s.setPc 0).setPage 0 (some (openPage 0))
  | .flat =>
    if s.pc.toNat < s.cfg.memSize then s.setProt s.pc.toNat false else (s.setPc 0).setProt 0 false

/-- `s` with the word `w` at the physical address the next fetch reads, the address made fetchable first where it is
not (log entry 3). -/
def placeFetchWord (s : State) (w : Word) : State :=
  match translateAddr s s.pc .execute with
  | .ok pa => s.memWrite pa w
  | .error _ =>
    match translateAddr (openFetch s) (openFetch s).pc .execute with
    | .ok pa => (openFetch s).memWrite pa w
    | .error _ => s

end Sys2Proof.Machine
end

