-- ==== Sys2Proof/Machine/Step.lean ====
section
/-! DEFINITION. One step of the core (R115), and the placing of an instruction where the next step fetches it. -/

namespace Sys2Proof.Machine

/-- `step()` of R115: fetch, decode, `pc <- ia + 1`, execute, count. It checks neither a budget nor `pc < MEM_SIZE`. -/
def step (s : State) : Host.Outcome State Fault Refusal :=
  match fetch s with
  | .ok w => executeWord exec s w
  | .error f => .fault f

/-- `s` with the instruction of the opcode table whose low `nbits` bits are those of `w` stored where `step` fetches its
next instruction (log entry 3). -/
def State.withFetchWord (s : State) (nbits w : Nat) : State := placeFetchWord s (tableWord nbits w)

end Sys2Proof.Machine
end

