-- ==== Sys2Proof/Machine/HostInterface.lean ====
section
/-! DEFINITION. The host-facing operations of the core (R5): `mapPage`, `clear`, `loadProgram`, `step`, `run`, the
read-only accessors, and the numeric codes of faults and halt reasons. -/

namespace Sys2Proof.Machine

/-! ### Codes (R109, R114) -/

/-- The numeric code of a fault (R109). -/
def Fault.code : Fault → Byte
  | .outOfRangeMemory => 0x01
  | .outOfRangePage => 0x02
  | .pageFault => 0x03
  | .permissionFault => 0x04
  | .privilegeFault => 0x05
  | .stackOverflow => 0x06
  | .stackUnderflow => 0x07
  | .divisionByZero => 0x08
  | .invalidOpcode => 0x09
  | .invalidRegister => 0x0A
  | .outOfRangePort => 0x0B
  | .outOfRangeInterrupt => 0x0C

/-- Why a run stopped (R114). -/
inductive HaltReason where
  | budgetExhausted
  | pcOutOfRange
  | fault (f : Fault)
  /-- The model's own: the step refused. No step refuses (log entry 11). -/
  | refused (r : Refusal)
deriving DecidableEq, Repr

/-- The hardware code of a halt reason (R114). A refusal has none. -/
def haltCode : HaltReason → Option Byte
  | .budgetExhausted => some 0x20
  | .pcOutOfRange => some 0x21
  | .fault f => some f.code
  | .refused _ => none

/-- `ExecutionReport` of R114. -/
structure ExecutionReport where
  haltReason : HaltReason
  instructionsExecuted : Word
deriving DecidableEq, Repr

/-! ### Host operations -/

/-- `mapPage` of R47. It exists in PAGED only. -/
def mapPage (vp pp : Word) (perms : KindSet) (s : State) : Host.Outcome State Fault Refusal :=
  match s.cfg.scheme with
  | .flat => .refused .noMapPageInFlat
  | .paged =>
    if s.cfg.ptSize ≤ vp.toNat then .fault .outOfRangePage
    else .next (s.setPage vp.toNat (some { physicalPage := pp, permissions := perms }))

/-- `clear` of R131: every memory word 0 and every page-table slot absent, and nothing else. -/
def clear (s : State) : State := { s with mem := [], pt := [] }

/-- The loop of `loadProgram` from word address `a`: the words before a fault stay written (R132). -/
def loadFrom (a : Nat) : List Word → State → State × Option Fault
  | [], s => (s, none)
  | w :: ws, s =>
    match translateAddr s (BitVec.ofNat 32 a) .write with
    | .ok pa => loadFrom (a + 1) ws (s.memWrite pa w)
    | .error f => (s, some f)

/-- `loadProgram(words)` of R132: the state it leaves, and the fault it stopped at if any. -/
def loadProgram (words : List Word) (s : State) : State × Option Fault := loadFrom 0 words s

/-- `step()` as the host calls it (R115): the state it leaves, which is the old one on a fault (R110), and its result. -/
def stepCall (s : State) : State × Host.Outcome Unit Fault Refusal :=
  match step s with
  | .next t => (t, .next ())
  | .fault f => (s, .fault f)
  | .refused r => (s, .refused r)

/-- The run loop of R113 with `left` of the budget to go and `n` steps completed: budget, then `pc` range, then step. -/
def runLoop : Nat → Nat → State → ExecutionReport × State
  | 0, n, s => ({ haltReason := .budgetExhausted, instructionsExecuted := BitVec.ofNat 32 n }, s)
  | left + 1, n, s =>
    if s.cfg.memSize ≤ s.pc.toNat then
      ({ haltReason := .pcOutOfRange, instructionsExecuted := BitVec.ofNat 32 n }, s)
    else match step s with
      | .next t => runLoop left (n + 1) t
      | .fault f => ({ haltReason := .fault f, instructionsExecuted := BitVec.ofNat 32 n }, s)
      | .refused r => ({ haltReason := .refused r, instructionsExecuted := BitVec.ofNat 32 n }, s)

/-- `run(max)` of R113: the report, and the state the run left, which is not latched (R33). -/
def run (max : Word) (s : State) : ExecutionReport × State := runLoop max.toNat 0 s

/-- `run()` with the default budget `MAX_INSTR` (R7). -/
def runDefault (s : State) : ExecutionReport × State := run s.cfg.maxInstr s

/-! ### Read-only accessors (R135). `pc`, the mode flag and `SYSOUT` are the fields of that name. -/

/-- The registers snapshot. -/
def registersSnapshot (s : State) : List Word := (List.range s.cfg.numRegs).map s.reg

/-- The memory snapshot. -/
def memorySnapshot (s : State) : List Word := (List.range s.cfg.memSize).map s.memRead

/-- The stack depth, `len(OS)`. -/
def stackDepth (s : State) : Nat := s.os.length

/-! ### One host call -/

/-- A call the host makes on the core. Calls are indivisible and never overlap (R12, R137), and may come in any order. -/
inductive HostCall where
  | mapPage (vp pp : Word) (perms : KindSet)
  | clear
  | loadProgram (words : List Word)
  | step
  | run (max : Word)
deriving DecidableEq, Repr

/-- The state a host call leaves: on a fault, and on a refusal, the one it found, but for the words a stopped
`loadProgram` wrote and the steps a stopped `run` completed. -/
def hostCall (c : HostCall) (s : State) : State :=
  match c with
  | .mapPage vp pp perms => match mapPage vp pp perms s with
    | .next t => t
    | .fault _ => s
    | .refused _ => s
  | .clear => clear s
  | .loadProgram words => (loadProgram words s).1
  | .step => (stepCall s).1
  | .run max => (run max s).2

end Sys2Proof.Machine
end

