-- ==== Sys2Proof/WellFormed.lean ====
section
/-! DEFINITION. Which instructions are well formed under a configuration: every field names something that exists.
An ill-formed instruction still decodes and executes: its meaning raises the fault the spec names. -/

namespace Sys2Proof

/-- A register field names a register (R17). -/
def Config.regOk (cfg : Config) (o : Byte) : Bool := decide (o.toNat < cfg.numRegs)

/-- A cache-slot field names a slot (R97). -/
def Config.slotOk (cfg : Config) (o : Byte) : Bool := decide (o.toNat < cfg.cacheSlots)

/-- A port field names a port (R103, R104). -/
def Config.portOk (cfg : Config) (o : Byte) : Bool := decide (o.toNat < cfg.numPorts)

/-- An interrupt number names a vector (R105). -/
def Config.vectorOk (cfg : Config) (o : Byte) : Bool := decide (o.toNat < cfg.ivtSize)

/-- Every field of the instruction names something that exists (R61). -/
def Instr.wellFormed (cfg : Config) : Instr → Bool
  | .load o1 o2 => cfg.regOk o1 && cfg.regOk o2
  | .store o1 o2 => cfg.regOk o1 && cfg.regOk o2
  | .add o1 o2 => cfg.regOk o1 && cfg.regOk o2
  | .sub o1 o2 => cfg.regOk o1 && cfg.regOk o2
  | .mul o1 o2 => cfg.regOk o1 && cfg.regOk o2
  | .div o1 o2 => cfg.regOk o1 && cfg.regOk o2
  | .jump o1 => cfg.regOk o1
  | .jumpIfZero o1 o2 => cfg.regOk o1 && cfg.regOk o2
  | .push o1 => cfg.regOk o1
  | .pop o1 => cfg.regOk o1
  | .call o1 => cfg.regOk o1
  | .ret => true
  | .sysReg o2 => cfg.regOk o2
  | .sysMem _ => true
  | .cacheRead o1 o2 => cfg.regOk o2 && cfg.slotOk o1
  | .cacheWrite o1 o2 => cfg.regOk o2 && cfg.slotOk o1
  | .privileged => true
  | .enterPrivileged => true
  | .exitPrivileged => true
  | .inPort o1 o2 => cfg.regOk o1 && cfg.portOk o2
  | .outPort o1 o2 => cfg.regOk o1 && cfg.portOk o2
  | .int o1 => cfg.vectorOk o1

end Sys2Proof
end

