-- ==== Sys2Proof/Safety.lean ====
section
/-! DEFINITION. The terms that claims about this machine use: launch states and reachable states, what an effect leaves
alone, which fields an instruction may write, and what no software can observe. -/

namespace Sys2Proof.Machine

/-! ### Launch states (R136) and reachable states -/

/-- Every array is in canonical form and within the size the configuration gives it. -/
abbrev ArraysFit (s : State) : Prop :=
  (CellsCanonical 0 s.x ∧ CellsBelow s.cfg.numRegs s.x) ∧
  (Memory.wf s.mem ∧ CellsBelow s.cfg.memSize s.mem) ∧
  (CellsCanonical none s.pt ∧ CellsBelow s.cfg.ptSize s.pt) ∧
  (CellsCanonical false s.pred ∧ CellsBelow s.cfg.predSize s.pred) ∧
  (CellsCanonical 0 s.btb ∧ CellsBelow s.cfg.btbSize s.btb) ∧
  (CellsCanonical 0 s.cache ∧ CellsBelow s.cfg.cacheSlots s.cache) ∧
  (CellsCanonical 0 s.ports ∧ CellsBelow s.cfg.numPorts s.ports) ∧
  (CellsCanonical 0 s.ivt ∧ CellsBelow s.cfg.ivtSize s.ivt) ∧
  (CellsCanonical false s.prot ∧ CellsBelow s.cfg.memSize s.prot)

/-- The page table exists in PAGED only (R24) and the protection bits in FLAT only (R32). -/
abbrev SchemeFits (s : State) : Prop :=
  (s.cfg.scheme = .paged → s.prot = []) ∧ (s.cfg.scheme = .flat → s.pt = [])

/-- The invariants of a launch state (R136): the configuration meets R7, the operand stack is within its depth limit,
and each array has its configured size. -/
abbrev State.wf (s : State) : Prop :=
  s.cfg.wf ∧ s.os.length ≤ s.cfg.stackDepth ∧ ArraysFit s ∧ SchemeFits s

/-- Launch parameters whose arrays are in canonical form and within the configuration's sizes (R8). -/
abbrev LaunchFits (cfg : Config) (l : LaunchParams) : Prop :=
  (CellsCanonical 0 l.ivtInit ∧ CellsBelow cfg.ivtSize l.ivtInit) ∧
  (CellsCanonical false l.predInit ∧ CellsBelow cfg.predSize l.predInit) ∧
  (CellsCanonical false l.protInit ∧ CellsBelow cfg.memSize l.protInit)

/-- The states host calls reach from construction (R129, R137). -/
inductive Reachable : State → Prop where
  | construct (cfg : Config) (l : LaunchParams) : cfg.wf → LaunchFits cfg l → Reachable (State.construct cfg l)
  | call (c : HostCall) (s : State) : Reachable s → Reachable (hostCall c s)

/-! ### What an effect writes, and that it writes nothing else -/

/-- Register `o` holds `v`, every other register is as before, and so is every other field. -/
def OnlyRegister (o : Byte) (v : Word) (s t : State) : Prop :=
  regOf t o = v ∧ (∀ n, n ≠ o.toNat → t.reg n = s.reg n) ∧ t = { s with x := t.x }

/-- Memory word `pa` holds `v`, every other memory word is as before, and so is every other field. -/
def OnlyMemoryWord (pa : Nat) (v : Word) (s t : State) : Prop :=
  t.memRead pa = v ∧ (∀ a, a ≠ pa → t.memRead a = s.memRead a) ∧ t = { s with mem := t.mem }

/-- Cache slot `k` holds `v`, every other slot is as before, and so is every other field. -/
def OnlyCacheSlot (k : Byte) (v : Word) (s t : State) : Prop :=
  t.cacheSlot k.toNat = v ∧ (∀ n, n ≠ k.toNat → t.cacheSlot n = s.cacheSlot n) ∧ t = { s with cache := t.cache }

/-- Port `p` holds `v`, every other port is as before, and so is every other field. -/
def OnlyPort (p : Byte) (v : Word) (s t : State) : Prop :=
  t.port p.toNat = v ∧ (∀ n, n ≠ p.toNat → t.port n = s.port n) ∧ t = { s with ports := t.ports }

/-- The fields of the state. -/
inductive StateField where
  | cfg
  | x
  | pc
  | mode
  | icount
  | mem
  | pt
  | os
  | ras
  | pred
  | btb
  | cache
  | ports
  | ivt
  | prot
  | sysout
deriving DecidableEq, Repr

/-- A field has the same value in two states. -/
def StateField.same : StateField → State → State → Prop
  | .cfg, s, t => t.cfg = s.cfg
  | .x, s, t => t.x = s.x
  | .pc, s, t => t.pc = s.pc
  | .mode, s, t => t.mode = s.mode
  | .icount, s, t => t.icount = s.icount
  | .mem, s, t => t.mem = s.mem
  | .pt, s, t => t.pt = s.pt
  | .os, s, t => t.os = s.os
  | .ras, s, t => t.ras = s.ras
  | .pred, s, t => t.pred = s.pred
  | .btb, s, t => t.btb = s.btb
  | .cache, s, t => t.cache = s.cache
  | .ports, s, t => t.ports = s.ports
  | .ivt, s, t => t.ivt = s.ivt
  | .prot, s, t => t.prot = s.prot
  | .sysout, s, t => t.sysout = s.sysout

/-- The fields an instruction may write in its execute phase, the W entries of the access matrix R37. An entry `W+1`
of the `pc` row is the fetch's own write (R68), made before the execute phase, so it is no entry here. -/
def mayWrite : Instr → List StateField
  | .load _ _ => [.x]
  | .store _ _ => [.mem]
  | .add _ _ => [.x]
  | .sub _ _ => [.x]
  | .mul _ _ => [.x]
  | .div _ _ => [.x]
  | .jump _ => [.pc, .btb]
  | .jumpIfZero _ _ => [.pc, .pred]
  | .push _ => [.os]
  | .pop _ => [.x, .os]
  | .call _ => [.pc, .os, .ras]
  | .ret => [.pc, .os, .ras]
  | .sysReg _ => [.sysout]
  | .sysMem _ => [.sysout]
  | .cacheRead _ _ => [.cache]
  | .cacheWrite _ _ => [.mem]
  | .privileged => []
  | .enterPrivileged => [.mode]
  | .exitPrivileged => [.mode]
  | .inPort _ _ => [.x]
  | .outPort _ _ => [.ports]
  | .int _ => [.pc, .mode, .os]

/-- The fields of an instruction that name registers, in the order they are checked (R61, R111). -/
def registerFields : Instr → List Byte
  | .load o1 o2 => [o1, o2]
  | .store o1 o2 => [o1, o2]
  | .add o1 o2 => [o1, o2]
  | .sub o1 o2 => [o1, o2]
  | .mul o1 o2 => [o1, o2]
  | .div o1 o2 => [o1, o2]
  | .jump o1 => [o1]
  | .jumpIfZero o1 o2 => [o1, o2]
  | .push o1 => [o1]
  | .pop o1 => [o1]
  | .call o1 => [o1]
  | .ret => []
  | .sysReg o2 => [o2]
  | .sysMem _ => []
  | .cacheRead _ o2 => [o2]
  | .cacheWrite _ o2 => [o2]
  | .privileged => []
  | .enterPrivileged => []
  | .exitPrivileged => []
  | .inPort o1 _ => [o1]
  | .outPort o1 _ => [o1]
  | .int _ => []

/-! ### Observation -/

/-- The state without what nothing reads: `RAS` contents, the BTB (R35) and `ICOUNT` (R21, R135). -/
def eraseHidden (s : State) : State := { s with ras := [], btb := [], icount := 0 }

/-- The state with its mode set to User: what is left of a state when the mode is not looked at. -/
def eraseMode (s : State) : State := s.setMode .user

/-- An outcome with its next state seen through `view`. -/
def seenThrough (view : State → State) : Host.Outcome State Fault Refusal → Host.Outcome State Fault Refusal
  | .next t => .next (view t)
  | .fault f => .fault f
  | .refused r => .refused r

/-! ### Safe steps -/

/-- The step completes. -/
def StepCompletes (s : State) : Prop := ∃ t, step s = .next t

/-- The step stops with one of the spec's faults. -/
def StepFaults (s : State) : Prop := ∃ f, step s = .fault f

end Sys2Proof.Machine
end

