-- ==== Sys2Proof/Certificates/Slice0/Obligations.lean ====
section
/-! DEFINITION. The statements about the model for the provers, from the numbered rules of the spec. -/

open Sys2Proof Sys2Proof.Machine

/-! ### Encoding -/

/-- R61, R62, R65, R66: under an injective opcode map a word decodes to an instruction exactly when the bits the
instruction uses are those of its encoding. That unused fields are ignored is the spec's decision D14 (log entry 33).
-/
def Obligations.DecodeIsTheEncodingTable : Prop :=
  ∀ (m : OpcodeMap), m.Injective → ∀ (w : Word) (i : Instr), decode m w = .ok i ↔ w &&& i.usedBits = encode m i

/-- Decoding the encoding of any instruction gives it back, for every injective opcode map and every operand value. -/
def Obligations.DecodeOfEncodeIsIdentity : Prop :=
  ∀ (m : OpcodeMap), m.Injective → ∀ i : Instr, decode m (encode m i) = .ok i

/-- R64, R66, R96: with the default map exactly the opcode values 0x00 and 0x16 to 0xFF, and SYS with another sub-op
than 0x01 and 0x02, are no instruction, and executing such a word raises InvalidOpcode. The opcode values are the
spec's decision D2 (log entry 15) and the SYS clause its decision D20 (log entry 23). -/
def Obligations.UndefinedWordsRaiseInvalidOpcode : Prop :=
  ∀ (s : State) (w : Word), s.cfg.opcodeMap = defaultOpcodeMap → fetch s = .ok w →
    ((∃ e, decode s.cfg.opcodeMap w = .error e) ↔
      ((w.toNat / 2 ^ 24 = 0 ∨ 0x16 ≤ w.toNat / 2 ^ 24) ∨
        (w.toNat / 2 ^ 24 = 0x0D ∧ w.toNat / 2 ^ 16 % 256 ≠ 1 ∧ w.toNat / 2 ^ 16 % 256 ≠ 2))) ∧
    ((∃ e, decode s.cfg.opcodeMap w = .error e) → step s = .fault .invalidOpcode)

/-- Words the spec writes out decode to the instructions it says they are (R60, R74, R84, R94, R95, R98, R103, R106). -/
def Obligations.SpecExampleWordsDecode : Prop :=
  decode defaultOpcodeMap 0x03010200 = .ok (.add 1 2) ∧ decode defaultOpcodeMap 0x01010200 = .ok (.load 1 2) ∧
  decode defaultOpcodeMap 0x08010200 = .ok (.jumpIfZero 1 2) ∧ decode defaultOpcodeMap 0x0B010000 = .ok (.call 1) ∧
  decode defaultOpcodeMap 0x0D010600 = .ok (.sysReg 6) ∧ decode defaultOpcodeMap 0x0D020300 = .ok (.sysMem 3) ∧
  decode defaultOpcodeMap 0x0E050200 = .ok (.cacheRead 5 2) ∧ decode defaultOpcodeMap 0x13010300 = .ok (.inPort 1 3) ∧
  decode defaultOpcodeMap 0x15020000 = .ok (.int 2) ∧ decode defaultOpcodeMap 0x10000000 = .ok .privileged

/-! ### Fetch and step -/

/-- R67: fetch translates `pc` for Execute, raises that translation's fault, and else reads the word there. -/
def Obligations.FetchTranslatesForExecute : Prop :=
  ∀ s : State,
    (∀ f, translateAddr s s.pc .execute = .error f → fetch s = .error f ∧ step s = .fault f) ∧
    (∀ pa, translateAddr s s.pc .execute = .ok pa → fetch s = .ok (s.memRead pa))

/-- R68, R69, R115: a step whose fetched word decodes to `i` is `exec i` of the state with `pc` at `ia + 1`. A completed
step adds 1 to ICOUNT, and a fault is the step's fault. -/
def Obligations.StepRunsTheDecodedInstruction : Prop :=
  ∀ (s : State) (w : Word) (i : Instr), fetch s = .ok w → decode s.cfg.opcodeMap w = .ok i →
    (∀ t, exec i { s with pc := s.pc + 1 } = .next t → step s = .next { t with icount := t.icount + 1 }) ∧
    (∀ f, exec i { s with pc := s.pc + 1 } = .fault f → step s = .fault f)

/-! ### Translation -/

/-- R43: the checks of PAGED translation, in its order. The OutOfRangePage clause is the spec's decision D15 and the
exact physical address its decision D16 (log entry 17). -/
def Obligations.PagedTranslationInOrder : Prop :=
  ∀ (s : State) (va : Word) (k : AccessKind), s.cfg.scheme = .paged →
    (s.cfg.ptSize ≤ va.toNat / s.cfg.pageSize → translateAddr s va k = .error .outOfRangePage) ∧
    (va.toNat / s.cfg.pageSize < s.cfg.ptSize →
      (s.pageEntry (va.toNat / s.cfg.pageSize) = none → translateAddr s va k = .error .pageFault) ∧
      (∀ e, s.pageEntry (va.toNat / s.cfg.pageSize) = some e →
        (e.permissions.has k = false → translateAddr s va k = .error .permissionFault) ∧
        (e.permissions.has k = true → ∀ pa, pa = e.physicalPage.toNat * s.cfg.pageSize + va.toNat % s.cfg.pageSize →
          (s.cfg.memSize ≤ pa → translateAddr s va k = .error .outOfRangeMemory) ∧
          (pa < s.cfg.memSize → translateAddr s va k = .ok pa))))

/-- R50: the checks of FLAT translation, in its order. The order is derived in the spec, and what a protected address
refuses is its decision D17 (log entry 26). -/
def Obligations.FlatTranslationInOrder : Prop :=
  ∀ (s : State) (va : Word) (k : AccessKind), s.cfg.scheme = .flat →
    (s.cfg.memSize ≤ va.toNat → translateAddr s va k = .error .outOfRangeMemory) ∧
    (va.toNat < s.cfg.memSize →
      (s.protBit va.toNat = true → s.cfg.protDenies.has k = true → translateAddr s va k = .error .permissionFault) ∧
      (s.protBit va.toNat = false ∨ s.cfg.protDenies.has k = false → translateAddr s va k = .ok va.toNat))

/-! ### Loads and stores -/

/-- R74. -/
def Obligations.LoadReadsTranslatedWord : Prop :=
  ∀ (s : State) (o1 o2 : Byte),
    (∀ o3 : Byte, decode defaultOpcodeMap (0x01#8 ++ o1 ++ o2 ++ o3) = .ok (.load o1 o2)) ∧
    (s.cfg.numRegs ≤ o1.toNat ∨ s.cfg.numRegs ≤ o2.toNat → exec (.load o1 o2) s = .fault .invalidRegister) ∧
    (o1.toNat < s.cfg.numRegs → o2.toNat < s.cfg.numRegs →
      (∀ f, translateAddr s (regOf s o2) .read = .error f → exec (.load o1 o2) s = .fault f) ∧
      (∀ pa, translateAddr s (regOf s o2) .read = .ok pa →
        ∃ t, exec (.load o1 o2) s = .next t ∧ OnlyRegister o1 (s.memRead pa) s t))

/-- R75. -/
def Obligations.StoreWritesTranslatedWord : Prop :=
  ∀ (s : State) (o1 o2 : Byte),
    (∀ o3 : Byte, decode defaultOpcodeMap (0x02#8 ++ o1 ++ o2 ++ o3) = .ok (.store o1 o2)) ∧
    (s.cfg.numRegs ≤ o1.toNat ∨ s.cfg.numRegs ≤ o2.toNat → exec (.store o1 o2) s = .fault .invalidRegister) ∧
    (o1.toNat < s.cfg.numRegs → o2.toNat < s.cfg.numRegs →
      (∀ f, translateAddr s (regOf s o2) .write = .error f → exec (.store o1 o2) s = .fault f) ∧
      (∀ pa, translateAddr s (regOf s o2) .write = .ok pa →
        ∃ t, exec (.store o1 o2) s = .next t ∧ OnlyMemoryWord pa (regOf s o1) s t))

/-! ### Register file and ALU -/

/-- R77. -/
def Obligations.AddWrapsModuloWord : Prop :=
  ∀ (s : State) (o1 o2 : Byte),
    (∀ o3 : Byte, decode defaultOpcodeMap (0x03#8 ++ o1 ++ o2 ++ o3) = .ok (.add o1 o2)) ∧
    (s.cfg.numRegs ≤ o1.toNat ∨ s.cfg.numRegs ≤ o2.toNat → exec (.add o1 o2) s = .fault .invalidRegister) ∧
    (o1.toNat < s.cfg.numRegs → o2.toNat < s.cfg.numRegs →
      ∃ t v, exec (.add o1 o2) s = .next t ∧ OnlyRegister o1 v s t ∧
        v.toNat = ((regOf s o1).toNat + (regOf s o2).toNat) % 2 ^ 32)

/-- R78. -/
def Obligations.SubWrapsModuloWord : Prop :=
  ∀ (s : State) (o1 o2 : Byte),
    (∀ o3 : Byte, decode defaultOpcodeMap (0x04#8 ++ o1 ++ o2 ++ o3) = .ok (.sub o1 o2)) ∧
    (s.cfg.numRegs ≤ o1.toNat ∨ s.cfg.numRegs ≤ o2.toNat → exec (.sub o1 o2) s = .fault .invalidRegister) ∧
    (o1.toNat < s.cfg.numRegs → o2.toNat < s.cfg.numRegs →
      ∃ t v, exec (.sub o1 o2) s = .next t ∧ OnlyRegister o1 v s t ∧
        (v.toNat : Int) = ((regOf s o1).toNat - (regOf s o2).toNat : Int) % 2 ^ 32)

/-- R79. -/
def Obligations.MulKeepsLowWord : Prop :=
  ∀ (s : State) (o1 o2 : Byte),
    (∀ o3 : Byte, decode defaultOpcodeMap (0x05#8 ++ o1 ++ o2 ++ o3) = .ok (.mul o1 o2)) ∧
    (s.cfg.numRegs ≤ o1.toNat ∨ s.cfg.numRegs ≤ o2.toNat → exec (.mul o1 o2) s = .fault .invalidRegister) ∧
    (o1.toNat < s.cfg.numRegs → o2.toNat < s.cfg.numRegs →
      ∃ t v, exec (.mul o1 o2) s = .next t ∧ OnlyRegister o1 v s t ∧
        v.toNat = ((regOf s o1).toNat * (regOf s o2).toNat) % 2 ^ 32)

/-- R80. That the division is unsigned is the spec's decision D26 (log entry 25). -/
def Obligations.DivIsUnsignedAndFaultsOnZero : Prop :=
  ∀ (s : State) (o1 o2 : Byte),
    (∀ o3 : Byte, decode defaultOpcodeMap (0x06#8 ++ o1 ++ o2 ++ o3) = .ok (.div o1 o2)) ∧
    (s.cfg.numRegs ≤ o1.toNat ∨ s.cfg.numRegs ≤ o2.toNat → exec (.div o1 o2) s = .fault .invalidRegister) ∧
    (o1.toNat < s.cfg.numRegs → o2.toNat < s.cfg.numRegs →
      (regOf s o2 = 0 → exec (.div o1 o2) s = .fault .divisionByZero) ∧
      (regOf s o2 ≠ 0 → ∃ t v, exec (.div o1 o2) s = .next t ∧ OnlyRegister o1 v s t ∧
        v.toNat = (regOf s o1).toNat / (regOf s o2).toNat))

/-! ### Jumps -/

/-- R83, and R82 for the BTB slot. The BTB slot and value are the spec's decision D10 (log entry 18), the physical
target in `pc` its decision D48 (log entry 20). -/
def Obligations.JumpRecordsBranchAndGoesToTarget : Prop :=
  ∀ (s : State) (o1 : Byte),
    (∀ o2 o3 : Byte, decode defaultOpcodeMap (0x07#8 ++ o1 ++ o2 ++ o3) = .ok (.jump o1)) ∧
    (s.cfg.numRegs ≤ o1.toNat → exec (.jump o1) s = .fault .invalidRegister) ∧
    (o1.toNat < s.cfg.numRegs →
      (∀ f, translateAddr s (regOf s o1) .execute = .error f → exec (.jump o1) s = .fault f) ∧
      (∀ pa, translateAddr s (regOf s o1) .execute = .ok pa →
        ∃ t, exec (.jump o1) s = .next t ∧ t.pc = BitVec.ofNat 32 pa ∧
          t.btbEntry (s.pc.toNat % s.cfg.btbSize) = s.pc ∧
          (∀ n, n ≠ s.pc.toNat % s.cfg.btbSize → t.btbEntry n = s.btbEntry n) ∧
          t = { s with pc := t.pc, btb := t.btb }))

/-- R84 and its table of outcomes, with the slot of R81. Rests on the spec's decisions D10, D12 and D22 (log entries
17, 18 and 19). -/
def Obligations.JumpIfZeroDoubleEvaluation : Prop :=
  ∀ (s : State) (o1 o2 : Byte),
    (∀ o3 : Byte, decode defaultOpcodeMap (0x08#8 ++ o1 ++ o2 ++ o3) = .ok (.jumpIfZero o1 o2)) ∧
    (s.cfg.numRegs ≤ o1.toNat ∨ s.cfg.numRegs ≤ o2.toNat →
      exec (.jumpIfZero o1 o2) s = .fault .invalidRegister) ∧
    (o1.toNat < s.cfg.numRegs → o2.toNat < s.cfg.numRegs → ∀ slot, slot = s.pc.toNat % s.cfg.predSize →
      (s.predTaken slot = false → regOf s o1 ≠ 0 →
        ∃ t, exec (.jumpIfZero o1 o2) s = .next t ∧ (∀ n, t.predTaken n = s.predTaken n) ∧
          t = { s with pred := t.pred }) ∧
      (s.predTaken slot = true ∨ regOf s o1 = 0 → ∀ f, translateAddr s (regOf s o2) .execute = .error f →
        exec (.jumpIfZero o1 o2) s = .fault f) ∧
      (regOf s o1 = 0 → ∀ pa, translateAddr s (regOf s o2) .execute = .ok pa →
        exec (.jumpIfZero o1 o2) s = .next { s with pc := BitVec.ofNat 32 pa }) ∧
      (s.predTaken slot = true → regOf s o1 ≠ 0 → ∀ pa, translateAddr s (regOf s o2) .execute = .ok pa →
        ∃ t, exec (.jumpIfZero o1 o2) s = .next t ∧ t.pc = BitVec.ofNat 32 pa ∧ t.predTaken slot = false ∧
          (∀ n, n ≠ slot → t.predTaken n = s.predTaken n) ∧ t = { s with pc := t.pc, pred := t.pred }))

/-- R85 (and R90 for CALL): after a JUMP, a redirecting JUMP_IF_ZERO or a CALL that completes, `pc` is the physical
address that the translation of the target register answers, as a number. That `pc` holds the physical address is the
spec's decision D48 (log entry 20). -/
def Obligations.JumpsLeavePhysicalTargetInPc : Prop :=
  ∀ (s t : State), s.cfg.wf →
    (∀ o1, exec (.jump o1) s = .next t → translateAddr s (regOf s o1) .execute = .ok t.pc.toNat) ∧
    (∀ o1, exec (.call o1) s = .next t → translateAddr s (regOf s o1) .execute = .ok t.pc.toNat) ∧
    (∀ o1 o2, exec (.jumpIfZero o1 o2) s = .next t →
      (regOf s o1 = 0 ∨ s.predTaken (s.pc.toNat % s.cfg.predSize) = true) →
      translateAddr s (regOf s o2) .execute = .ok t.pc.toNat)

/-! ### Operand stack, calls and returns -/

/-- R88. -/
def Obligations.PushAppendsOrOverflows : Prop :=
  ∀ (s : State) (o1 : Byte),
    (∀ o2 o3 : Byte, decode defaultOpcodeMap (0x09#8 ++ o1 ++ o2 ++ o3) = .ok (.push o1)) ∧
    (s.cfg.numRegs ≤ o1.toNat → exec (.push o1) s = .fault .invalidRegister) ∧
    (o1.toNat < s.cfg.numRegs →
      (s.os.length = s.cfg.stackDepth → exec (.push o1) s = .fault .stackOverflow) ∧
      (s.os.length < s.cfg.stackDepth → exec (.push o1) s = .next { s with os := s.os ++ [regOf s o1] }))

/-- R89. -/
def Obligations.PopTakesTopOrUnderflows : Prop :=
  ∀ (s : State) (o1 : Byte),
    (∀ o2 o3 : Byte, decode defaultOpcodeMap (0x0A#8 ++ o1 ++ o2 ++ o3) = .ok (.pop o1)) ∧
    (s.cfg.numRegs ≤ o1.toNat → exec (.pop o1) s = .fault .invalidRegister) ∧
    (o1.toNat < s.cfg.numRegs →
      (s.os = [] → exec (.pop o1) s = .fault .stackUnderflow) ∧
      (∀ rest v, s.os = rest ++ [v] →
        ∃ t, exec (.pop o1) s = .next t ∧ OnlyRegister o1 v { s with os := rest } t))

/-- R90. The order of StackOverflow and translation is the spec's decision D13 (log entry 17), the physical target its
decision D48 (log entry 20). -/
def Obligations.CallPushesReturnAddressOnBothStacks : Prop :=
  ∀ (s : State) (o1 : Byte),
    (∀ o2 o3 : Byte, decode defaultOpcodeMap (0x0B#8 ++ o1 ++ o2 ++ o3) = .ok (.call o1)) ∧
    (s.cfg.numRegs ≤ o1.toNat → exec (.call o1) s = .fault .invalidRegister) ∧
    (o1.toNat < s.cfg.numRegs →
      (s.os.length = s.cfg.stackDepth → exec (.call o1) s = .fault .stackOverflow) ∧
      (s.os.length < s.cfg.stackDepth →
        (∀ f, translateAddr s (regOf s o1) .execute = .error f → exec (.call o1) s = .fault f) ∧
        (∀ pa, translateAddr s (regOf s o1) .execute = .ok pa →
          exec (.call o1) s =
            .next { s with os := s.os ++ [s.pc], ras := s.ras ++ [s.pc], pc := BitVec.ofNat 32 pa })))

/-- R91, and R92: no comparison of the popped word with the return-address stack. That an empty `RAS` raises nothing
is the spec's decision D23 (log entry 21). -/
def Obligations.RetPopsPcAndDropsReturnAddress : Prop :=
  ∀ s : State,
    (∀ o1 o2 o3 : Byte, decode defaultOpcodeMap (0x0C#8 ++ o1 ++ o2 ++ o3) = .ok .ret) ∧
    (s.os = [] → exec .ret s = .fault .stackUnderflow) ∧
    (∀ rest v, s.os = rest ++ [v] →
      ∃ t, exec .ret s = .next t ∧ (s.ras = [] → t.ras = []) ∧ (∀ r w, s.ras = r ++ [w] → t.ras = r) ∧
        t = { s with pc := v, os := rest, ras := t.ras })

/-! ### SYS and the cache -/

/-- R94. That a report is an append to `SYSOUT` is the spec's decision D19 (log entry 23). -/
def Obligations.SysRegReportsRegister : Prop :=
  ∀ (s : State) (o2 : Byte),
    (∀ o3 : Byte, decode defaultOpcodeMap (0x0D#8 ++ 0x01#8 ++ o2 ++ o3) = .ok (.sysReg o2)) ∧
    (s.cfg.numRegs ≤ o2.toNat → exec (.sysReg o2) s = .fault .invalidRegister) ∧
    (o2.toNat < s.cfg.numRegs → exec (.sysReg o2) s = .next { s with sysout := s.sysout ++ [regOf s o2] })

/-- R95. That the address is the immediate field is the spec's decision D18, and the append to `SYSOUT` its decision
D19 (log entry 23). -/
def Obligations.SysMemReportsImmediateAddress : Prop :=
  ∀ (s : State) (o2 : Byte) (va : Word), va.toNat = o2.toNat →
    (∀ o3 : Byte, decode defaultOpcodeMap (0x0D#8 ++ 0x02#8 ++ o2 ++ o3) = .ok (.sysMem o2)) ∧
    (∀ f, translateAddr s va .read = .error f → exec (.sysMem o2) s = .fault f) ∧
    (∀ pa, translateAddr s va .read = .ok pa → exec (.sysMem o2) s = .next { s with sysout := s.sysout ++ [s.memRead pa] })

/-- R98. The direction is the spec's decision D21 and the slot fault its decision D6 (log entry 24). -/
def Obligations.CacheReadCopiesMemoryToSlot : Prop :=
  ∀ (s : State) (o1 o2 : Byte),
    (∀ o3 : Byte, decode defaultOpcodeMap (0x0E#8 ++ o1 ++ o2 ++ o3) = .ok (.cacheRead o1 o2)) ∧
    (s.cfg.numRegs ≤ o2.toNat → exec (.cacheRead o1 o2) s = .fault .invalidRegister) ∧
    (o2.toNat < s.cfg.numRegs →
      (s.cfg.cacheSlots ≤ o1.toNat → exec (.cacheRead o1 o2) s = .fault .outOfRangeMemory) ∧
      (o1.toNat < s.cfg.cacheSlots →
        (∀ f, translateAddr s (regOf s o2) .read = .error f → exec (.cacheRead o1 o2) s = .fault f) ∧
        (∀ pa, translateAddr s (regOf s o2) .read = .ok pa →
          ∃ t, exec (.cacheRead o1 o2) s = .next t ∧ OnlyCacheSlot o1 (s.memRead pa) s t)))

/-- R99. The direction is the spec's decision D21 and the slot fault its decision D6 (log entry 24). -/
def Obligations.CacheWriteCopiesSlotToMemory : Prop :=
  ∀ (s : State) (o1 o2 : Byte),
    (∀ o3 : Byte, decode defaultOpcodeMap (0x0F#8 ++ o1 ++ o2 ++ o3) = .ok (.cacheWrite o1 o2)) ∧
    (s.cfg.numRegs ≤ o2.toNat → exec (.cacheWrite o1 o2) s = .fault .invalidRegister) ∧
    (o2.toNat < s.cfg.numRegs →
      (s.cfg.cacheSlots ≤ o1.toNat → exec (.cacheWrite o1 o2) s = .fault .outOfRangeMemory) ∧
      (o1.toNat < s.cfg.cacheSlots →
        (∀ f, translateAddr s (regOf s o2) .write = .error f → exec (.cacheWrite o1 o2) s = .fault f) ∧
        (∀ pa, translateAddr s (regOf s o2) .write = .ok pa →
          ∃ t, exec (.cacheWrite o1 o2) s = .next t ∧ OnlyMemoryWord pa (s.cacheSlot o1.toNat) s t)))

/-! ### Privilege, ports, interrupts -/

/-- R100. -/
def Obligations.PrivilegedChecksMode : Prop :=
  ∀ s : State,
    (∀ o1 o2 o3 : Byte, decode defaultOpcodeMap (0x10#8 ++ o1 ++ o2 ++ o3) = .ok .privileged) ∧
    (s.mode = .user → exec .privileged s = .fault .privilegeFault) ∧
    (s.mode = .privileged → exec .privileged s = .next s)

/-- R101. -/
def Obligations.EnterPrivilegedAlwaysEnters : Prop :=
  ∀ s : State,
    (∀ o1 o2 o3 : Byte, decode defaultOpcodeMap (0x11#8 ++ o1 ++ o2 ++ o3) = .ok .enterPrivileged) ∧
    exec .enterPrivileged s = .next { s with mode := .privileged }

/-- R102. -/
def Obligations.ExitPrivilegedAlwaysExits : Prop :=
  ∀ s : State,
    (∀ o1 o2 o3 : Byte, decode defaultOpcodeMap (0x12#8 ++ o1 ++ o2 ++ o3) = .ok .exitPrivileged) ∧
    exec .exitPrivileged s = .next { s with mode := .user }

/-- R103. -/
def Obligations.InReadsPort : Prop :=
  ∀ (s : State) (o1 o2 : Byte),
    (∀ o3 : Byte, decode defaultOpcodeMap (0x13#8 ++ o1 ++ o2 ++ o3) = .ok (.inPort o1 o2)) ∧
    (s.cfg.numRegs ≤ o1.toNat → exec (.inPort o1 o2) s = .fault .invalidRegister) ∧
    (o1.toNat < s.cfg.numRegs →
      (s.cfg.numPorts ≤ o2.toNat → exec (.inPort o1 o2) s = .fault .outOfRangePort) ∧
      (o2.toNat < s.cfg.numPorts →
        ∃ t, exec (.inPort o1 o2) s = .next t ∧ OnlyRegister o1 (s.port o2.toNat) s t))

/-- R104. -/
def Obligations.OutWritesPort : Prop :=
  ∀ (s : State) (o1 o2 : Byte),
    (∀ o3 : Byte, decode defaultOpcodeMap (0x14#8 ++ o1 ++ o2 ++ o3) = .ok (.outPort o1 o2)) ∧
    (s.cfg.numRegs ≤ o1.toNat → exec (.outPort o1 o2) s = .fault .invalidRegister) ∧
    (o1.toNat < s.cfg.numRegs →
      (s.cfg.numPorts ≤ o2.toNat → exec (.outPort o1 o2) s = .fault .outOfRangePort) ∧
      (o2.toNat < s.cfg.numPorts → ∃ t, exec (.outPort o1 o2) s = .next t ∧ OnlyPort o2 (regOf s o1) s t))

/-- R106, by the interrupt entry of R105. The fault on a full stack is the spec's decision D25 (log entry 22). -/
def Obligations.IntEntersVectoredHandler : Prop :=
  ∀ (s : State) (o1 : Byte),
    (∀ o2 o3 : Byte, decode defaultOpcodeMap (0x15#8 ++ o1 ++ o2 ++ o3) = .ok (.int o1)) ∧
    (s.cfg.ivtSize ≤ o1.toNat → exec (.int o1) s = .fault .outOfRangeInterrupt) ∧
    (o1.toNat < s.cfg.ivtSize →
      (s.os.length = s.cfg.stackDepth → exec (.int o1) s = .fault .stackOverflow) ∧
      (s.os.length < s.cfg.stackDepth →
        exec (.int o1) s = .next { s with os := s.os ++ [s.pc], pc := s.vector o1.toNat, mode := .privileged }))

/-! ### Rules over every instruction -/

/-- R17: an instruction raises InvalidRegister exactly when one of its register fields is out of range. Checking every
named field, before everything else, is the spec's decision D12 (log entry 17). -/
def Obligations.InvalidRegisterExactlyOutOfRangeField : Prop :=
  ∀ (i : Instr) (s : State),
    exec i s = .fault .invalidRegister ↔ ∃ o ∈ registerFields i, s.cfg.numRegs ≤ o.toNat

/-- R17, R97, R103 to R105: an ill-formed instruction faults in every state, and a well-formed one never raises a
fault of its fields. The slot clause is the spec's decision D6 (log entry 24). -/
def Obligations.IllFormedInstructionsFault : Prop :=
  ∀ (i : Instr) (s : State),
    (i.wellFormed s.cfg = false → exec i s = .fault .invalidRegister ∨ exec i s = .fault .outOfRangeMemory ∨
      exec i s = .fault .outOfRangePort ∨ exec i s = .fault .outOfRangeInterrupt) ∧
    (i.wellFormed s.cfg = true → exec i s ≠ .fault .invalidRegister ∧ exec i s ≠ .fault .outOfRangePort ∧
      exec i s ≠ .fault .outOfRangeInterrupt)

/-- R37, the W entries of the access matrix: an instruction leaves every field alone that the matrix does not let it
write. -/
def Obligations.OnlyMatrixFieldsAreWritten : Prop :=
  ∀ (i : Instr) (s t : State), exec i s = .next t → ∀ fld : StateField, fld ∉ mayWrite i → fld.same s t

/-- R24, R31, R32, R34: no step changes the configuration, the page table, the vector table or the protection bits.
That nothing writes `IVT` and `PROT` are the spec's decisions D8 and D39 (log entries 14 and 26). -/
def Obligations.StepsKeepHostOwnedState : Prop :=
  ∀ s t : State, step s = .next t → t.cfg = s.cfg ∧ t.pt = s.pt ∧ t.ivt = s.ivt ∧ t.prot = s.prot

/-- R20, R121: ENTER_PRIVILEGED and INT leave Privileged mode, EXIT_PRIVILEGED leaves User mode, and no other
instruction changes the mode. -/
def Obligations.ModeChangesOnlyByItsInstructions : Prop :=
  ∀ (i : Instr) (s t : State), exec i s = .next t →
    t.mode = match i with
      | .enterPrivileged => .privileged
      | .int _ => .privileged
      | .exitPrivileged => .user
      | _ => s.mode

/-- R122: but for PRIVILEGED, an instruction does the same in both modes, the mode itself aside. That nothing else is
gated is the spec's decision D40 (log entry 27). -/
def Obligations.ModeGatesOnlyPrivileged : Prop :=
  ∀ (i : Instr) (s : State) (m : Mode), i ≠ .privileged →
    seenThrough eraseMode (exec i { s with mode := m }) = seenThrough eraseMode (exec i s)

/-- R21: a completed step adds 1 to ICOUNT, and a run adds the number of instructions it reports. What ICOUNT counts
is the spec's decision D43 (log entry 14). -/
def Obligations.IcountCountsCompletedSteps : Prop :=
  (∀ s t : State, step s = .next t → t.icount = s.icount + 1) ∧
  (∀ (max : Word) (s : State), (run max s).2.icount = s.icount + (run max s).1.instructionsExecuted.toNat)

/-- R64: no step is refused: every word is an instruction that has a meaning, or faults. -/
def Obligations.NoStepIsRefused : Prop :=
  ∀ (s : State) (r : Refusal), step s ≠ .refused r

/-- R86: no instruction and no host call sets a predictor slot to taken. The literal reading is the spec's decision
D22 (log entry 19). -/
def Obligations.NothingSetsAPredictorSlot : Prop :=
  ∀ (c : HostCall) (s : State) (slot : Nat), (hostCall c s).predTaken slot = true → s.predTaken slot = true

/-- R35: the return-address stack's contents, the BTB and ICOUNT are not observable: two states that differ only there
give the same run report, and states that differ only there. The empty-`RAS` case of RET is the spec's decision D23
(log entry 21). -/
def Obligations.HiddenStateIsUnobservable : Prop :=
  ∀ (max : Word) (s t : State), eraseHidden s = eraseHidden t →
    (run max s).1 = (run max t).1 ∧ eraseHidden (run max s).2 = eraseHidden (run max t).2

/-! ### Reset and the invariants of launch states -/

/-- R38, R130: what construction leaves in every field, and that reset is the construction of the default PAGED
configuration. The values are the spec's decisions (log entry 14). That reset takes PAGED is the model's choice (log
entry 2). -/
def Obligations.ConstructionGivesResetValues : Prop :=
  (∀ (cfg : Config) (l : LaunchParams) (s : State), s = State.construct cfg l →
    s.cfg = cfg ∧ (∀ i, s.reg i = 0) ∧ s.pc = 0 ∧ s.mode = .user ∧ s.icount = 0 ∧ (∀ a, s.memRead a = 0) ∧
    (∀ v, s.pageEntry v = none) ∧ s.os = [] ∧ s.ras = [] ∧ (∀ n, s.predTaken n = cellAt false l.predInit n) ∧
    (∀ n, s.btbEntry n = 0) ∧ (∀ n, s.cacheSlot n = 0) ∧ (∀ p, s.port p = 0) ∧
    (∀ n, s.vector n = cellAt 0 l.ivtInit n) ∧
    (cfg.scheme = .flat → ∀ a, s.protBit a = cellAt false l.protInit a) ∧ s.sysout = []) ∧
  State.reset = State.construct Config.paged LaunchParams.default

/-- R136: the state after reset meets the invariants of a launch state. The canonical form is the model's own (log
entries 4 and 37). -/
def Obligations.ResetIsALaunchState : Prop := State.reset.wf

/-- R136: every step from a launch state leaves a launch state. The canonical form is the model's own (log entries 4
and 37). -/
def Obligations.StepKeepsLaunchInvariants : Prop :=
  ∀ s t : State, s.wf → step s = .next t → t.wf

/-- R136, R137: every state that host calls, in any order, reach from a construction with fitting parameters is a
launch state. The canonical form is the model's own (log entries 4 and 37). -/
def Obligations.ReachableStatesAreLaunchStates : Prop := ∀ s : State, Reachable s → s.wf

/-! ### Sequences of instructions -/

/-- R90, R91: a CALL and then a RET come back to the instruction after the CALL with both stacks as they were. -/
def Obligations.CallThenRetReturns : Prop :=
  ∀ (s t : State) (w v : Word) (o1 : Byte), fetch s = .ok w → decode s.cfg.opcodeMap w = .ok (.call o1) →
    step s = .next t → fetch t = .ok v → decode t.cfg.opcodeMap v = .ok .ret →
      ∃ u, step t = .next u ∧ u = { s with pc := s.pc + 1, icount := s.icount + 2 }

/-- R107: an INT and then a RET come back to the instruction after the INT in Privileged mode, whatever the mode was,
and the RET discards the top of the return-address stack. That an empty `RAS` raises nothing is the spec's decision
D23 (log entry 21). -/
def Obligations.IntThenRetStaysPrivileged : Prop :=
  ∀ (s t : State) (w v : Word) (o1 : Byte), fetch s = .ok w → decode s.cfg.opcodeMap w = .ok (.int o1) →
    step s = .next t → fetch t = .ok v → decode t.cfg.opcodeMap v = .ok .ret →
      ∃ u, step t = .next u ∧
        u = { s with pc := s.pc + 1, mode := .privileged, ras := s.ras.dropLast, icount := s.icount + 2 }

/-- R58: a word stored at the address the next fetch reads is the word that fetch reads. That no stale fetch path
exists is the spec's decision D35 (log entry 29). -/
def Obligations.StoredCodeIsFetchedNext : Prop :=
  ∀ (s t : State) (o1 o2 : Byte) (pa : Nat), exec (.store o1 o2) s = .next t →
    translateAddr s (regOf s o2) .write = .ok pa → translateAddr s s.pc .execute = .ok pa → fetch t = .ok (regOf s o1)

/-- R84, R86, R138: a slot makes at most one wrong-path redirect: after a JUMP_IF_ZERO with a false condition, the
same instruction from the same address, with the condition still false, falls through. The literal reading is the
spec's decision D22 (log entry 19). -/
def Obligations.WrongPathRedirectHappensOnce : Prop :=
  ∀ (s t : State) (o1 o2 : Byte), exec (.jumpIfZero o1 o2) s = .next t → regOf s o1 ≠ 0 →
    exec (.jumpIfZero o1 o2) { t with pc := s.pc } = .next { t with pc := s.pc }

/-! ### Host operations -/

/-- R47, and its last sentence for FLAT. The refusal in FLAT is the spec's decision D47 (log entry 10). -/
def Obligations.MapPageInsertsReplacesOrRejects : Prop :=
  ∀ (vp pp : Word) (perms : KindSet) (s : State),
    (s.cfg.scheme = .paged → s.cfg.ptSize ≤ vp.toNat →
      mapPage vp pp perms s = .fault .outOfRangePage ∧ hostCall (.mapPage vp pp perms) s = s) ∧
    (s.cfg.scheme = .paged → vp.toNat < s.cfg.ptSize → ∃ t, mapPage vp pp perms s = .next t ∧
      t.pageEntry vp.toNat = some { physicalPage := pp, permissions := perms } ∧
      (∀ n, n ≠ vp.toNat → t.pageEntry n = s.pageEntry n) ∧ t = { s with pt := t.pt }) ∧
    (s.cfg.scheme = .flat → mapPage vp pp perms s = .refused .noMapPageInFlat)

/-- R131. What `clear` leaves alone is the spec's decision D31 (log entry 31). -/
def Obligations.ClearEmptiesMemoryAndPageTable : Prop :=
  ∀ s : State, (∀ a, (clear s).memRead a = 0) ∧ (∀ v, (clear s).pageEntry v = none) ∧
    clear s = { s with mem := (clear s).mem, pt := (clear s).pt }

/-- R132: a completed load has translated every word's address for Write; each address holds the last word written to
it, and nothing else changed. A stopped load has written exactly the words before the one that faulted. That the
earlier words stay written is the spec's decision D30 (log entry 31). -/
def Obligations.LoadProgramWritesFromAddressZero : Prop :=
  ∀ (ws : List Word) (s t : State),
    (loadProgram ws s = (t, none) →
      (∀ i, i < ws.length → ∃ pa, translateAddr s (BitVec.ofNat 32 i) .write = .ok pa) ∧
      (∀ i w pa, ws[i]? = some w → translateAddr s (BitVec.ofNat 32 i) .write = .ok pa →
        (∀ j, i < j → j < ws.length → translateAddr s (BitVec.ofNat 32 j) .write ≠ .ok pa) → t.memRead pa = w) ∧
      (∀ a, (∀ j, j < ws.length → translateAddr s (BitVec.ofNat 32 j) .write ≠ .ok a) → t.memRead a = s.memRead a) ∧
      t = { s with mem := t.mem }) ∧
    (∀ f, loadProgram ws s = (t, some f) →
      ∃ k, k < ws.length ∧ translateAddr s (BitVec.ofNat 32 k) .write = .error f ∧
        loadProgram (ws.take k) s = (t, none))

/-- R113, R114, R140: a run completes at most `max` steps; the state it leaves is the one that many steps reach; and
its halt reason says why the next step was not taken. The order of the checks is the spec's decision D28 (log entry
30). -/
def Obligations.RunStopsWithinBudgetForItsReason : Prop :=
  ∀ (max : Word) (s t : State) (h : HaltReason) (n : Word),
    run max s = ({ haltReason := h, instructionsExecuted := n }, t) →
    Host.Core.run Sys2Proof.core n.toNat s = .next t ∧
    ((h = .budgetExhausted ∧ n = max) ∨
     (h = .pcOutOfRange ∧ n.toNat < max.toNat ∧ t.cfg.memSize ≤ t.pc.toNat) ∨
     (∃ f, h = .fault f ∧ n.toNat < max.toNat ∧ t.pc.toNat < t.cfg.memSize ∧ step t = .fault f))

/-- R114: a run that ended with a fault, run again with any budget but 0, re-raises the same fault with no step
completed. That a fault changes no state is the spec's decision D11 (log entry 7). -/
def Obligations.RunAgainReraisesFault : Prop :=
  ∀ (max again : Word) (s : State) (f : Fault), (run max s).1.haltReason = .fault f → again ≠ 0 →
    run again (run max s).2 = ({ haltReason := .fault f, instructionsExecuted := 0 }, (run max s).2)

/-- R33, R113: a halt is not latched: a run that exhausted its budget, continued by another, stops as one run with
both budgets does. That a halt is not latched is the spec's decision D28 (log entry 30). -/
def Obligations.RunContinuesAfterBudget : Prop :=
  ∀ (a b : Word) (s : State), a.toNat + b.toNat < 2 ^ 32 → (run a s).1.haltReason = .budgetExhausted →
    (run (a + b) s).1.haltReason = (run b (run a s).2).1.haltReason ∧
    (run (a + b) s).1.instructionsExecuted = a + (run b (run a s).2).1.instructionsExecuted ∧
    (run (a + b) s).2 = (run b (run a s).2).2

/-- R135: the snapshots show every register and every memory word, and the stack depth is the length of the operand
stack. -/
def Obligations.SnapshotsShowRegistersAndMemory : Prop :=
  ∀ s : State, (registersSnapshot s).length = s.cfg.numRegs ∧ (memorySnapshot s).length = s.cfg.memSize ∧
    (∀ i, i < s.cfg.numRegs → (registersSnapshot s)[i]? = some (s.reg i)) ∧
    (∀ a, a < s.cfg.memSize → (memorySnapshot s)[a]? = some (s.memRead a)) ∧ stackDepth s = s.os.length

/-- R109: the twelve fault codes are distinct, and none is a halt code of R114. The codes are the spec's decision D32
(log entry 7). -/
def Obligations.HaltCodesAreDistinct : Prop :=
  ∀ (g h : HaltReason) (c : Byte), haltCode g = some c → haltCode h = some c → g = h
end

