-- ==== Sys2Proof/Laws/Cells.lean ====
section
/-! SUPPORT. The laws of arrays held as cells: read after write, writes elsewhere, and the canonical form kept. -/

namespace Sys2Proof.Machine

section
variable {α : Type} {d : α}

theorem cellAt_filter_ne (c : Cells α) {j k : Nat} (h : j ≠ k) :
    cellAt d (c.filter (fun p => decide (p.1 ≠ k))) j = cellAt d c j := by
  induction c with
  | nil => rfl
  | cons p rest ih =>
    obtain ⟨i, u⟩ := p
    by_cases hik : i = k
    · subst hik
      have hij : i ≠ j := fun e => h e.symm
      simp [cellAt, hij] at ih ⊢
      exact ih
    · simp [cellAt, hik] at ih ⊢
      rw [ih]

theorem cellAt_filter_same (c : Cells α) (k : Nat) : cellAt d (c.filter (fun p => decide (p.1 ≠ k))) k = d := by
  induction c with
  | nil => rfl
  | cons p rest ih =>
    obtain ⟨i, u⟩ := p
    by_cases hik : i = k
    · simp [hik] at ih ⊢
      exact ih
    · simp [cellAt, hik] at ih ⊢
      exact ih

theorem cellAt_cellInsert_ne (c : Cells α) (v : α) {j k : Nat} (h : j ≠ k) :
    cellAt d (cellInsert k v c) j = cellAt d c j := by
  have hkj : k ≠ j := fun e => h e.symm
  induction c with
  | nil => simp [cellInsert, cellAt, hkj]
  | cons p rest ih =>
    obtain ⟨i, u⟩ := p
    by_cases hlt : k < i
    · simp [cellInsert, cellAt, hlt, hkj]
    · simp [cellInsert, cellAt, hlt, ih]

theorem cellAt_cellInsert_same (c : Cells α) (k : Nat) (v : α) (hk : ∀ p ∈ c, p.1 ≠ k) :
    cellAt d (cellInsert k v c) k = v := by
  induction c with
  | nil => simp [cellInsert, cellAt]
  | cons p rest ih =>
    obtain ⟨i, u⟩ := p
    have hik : i ≠ k := hk (i, u) (by simp)
    by_cases hlt : k < i
    · simp [cellInsert, cellAt, hlt]
    · simp [cellInsert, cellAt, hlt, hik]
      exact ih (fun q hq => hk q (List.mem_cons_of_mem _ hq))

theorem mem_cellInsert (c : Cells α) (k : Nat) (v : α) (p : Nat × α) :
    p ∈ cellInsert k v c ↔ p = (k, v) ∨ p ∈ c := by
  induction c with
  | nil => simp [cellInsert]
  | cons q rest ih =>
    obtain ⟨i, u⟩ := q
    by_cases hlt : k < i
    · simp [cellInsert, hlt]
    · simp only [cellInsert, hlt, if_false, List.mem_cons, ih]
      tauto

theorem pairwise_cellInsert (c : Cells α) (k : Nat) (v : α) (hc : c.Pairwise (fun p q => p.1 < q.1))
    (hk : ∀ p ∈ c, p.1 ≠ k) : (cellInsert k v c).Pairwise (fun p q => p.1 < q.1) := by
  induction c with
  | nil => simp [cellInsert]
  | cons q rest ih =>
    obtain ⟨i, u⟩ := q
    have hik : i ≠ k := hk (i, u) (by simp)
    obtain ⟨h1, h2⟩ := List.pairwise_cons.mp hc
    by_cases hlt : k < i
    · simp only [cellInsert, hlt, if_true]
      refine List.pairwise_cons.mpr ⟨fun p hp => ?_, hc⟩
      rcases List.mem_cons.mp hp with rfl | hp
      · exact hlt
      · exact Nat.lt_trans hlt (h1 p hp)
    · simp only [cellInsert, hlt, if_false]
      refine List.pairwise_cons.mpr ⟨fun p hp => ?_, ih h2 (fun p hp => hk p (List.mem_cons_of_mem _ hp))⟩
      rcases (mem_cellInsert rest k v p).mp hp with rfl | hp
      · show i < k
        omega
      · exact h1 p hp

variable [DecidableEq α]

/-- Read after write. -/
@[simp] theorem cellAt_cellSet_same (c : Cells α) (k : Nat) (v : α) : cellAt d (cellSet d c k v) k = v := by
  unfold cellSet
  split
  · rename_i hv
    rw [cellAt_filter_same, hv]
  · apply cellAt_cellInsert_same
    intro p hp
    simpa using (List.mem_filter.mp hp).2

/-- A write leaves every other index alone. -/
theorem cellAt_cellSet_ne (c : Cells α) (v : α) {j k : Nat} (h : j ≠ k) :
    cellAt d (cellSet d c k v) j = cellAt d c j := by
  unfold cellSet
  split
  · exact cellAt_filter_ne c h
  · rw [cellAt_cellInsert_ne _ v h, cellAt_filter_ne c h]

/-- A cell of a written array is the new one, or one the array had. -/
theorem mem_cellSet {c : Cells α} {k : Nat} {v : α} {p : Nat × α} (h : p ∈ cellSet d c k v) : p = (k, v) ∨ p ∈ c := by
  unfold cellSet at h
  split at h
  · exact .inr (List.mem_filter.mp h).1
  · rcases (mem_cellInsert _ k v p).mp h with h | h
    · exact .inl h
    · exact .inr (List.mem_filter.mp h).1

/-- Every write keeps the canonical form. -/
theorem cellSet_canonical {c : Cells α} (hc : CellsCanonical d c) (k : Nat) (v : α) :
    CellsCanonical d (cellSet d c k v) := by
  have hf : (c.filter (fun p => decide (p.1 ≠ k))).Pairwise (fun p q => p.1 < q.1) := hc.1.filter _
  unfold cellSet
  split
  · exact ⟨hf, fun p hp => hc.2 p (List.mem_filter.mp hp).1⟩
  · rename_i hv
    refine ⟨pairwise_cellInsert _ k v hf (fun p hp => by simpa using (List.mem_filter.mp hp).2), fun p hp => ?_⟩
    rcases (mem_cellInsert _ k v p).mp hp with rfl | hp
    · exact hv
    · exact hc.2 p (List.mem_filter.mp hp).1

/-- A write within bounds keeps the bounds. -/
theorem cellSet_below {c : Cells α} {n k : Nat} (hc : CellsBelow n c) (hk : k < n) (v : α) :
    CellsBelow n (cellSet d c k v) := by
  intro p hp
  rcases mem_cellSet hp with rfl | hp
  · exact hk
  · exact hc p hp

end

/-- Every memory write keeps the memory's canonical form. -/
theorem memWrite_wf {s : State} (h : s.mem.wf) (pa : Nat) (v : Word) : (s.memWrite pa v).mem.wf :=
  cellSet_canonical h pa v

end Sys2Proof.Machine
end

