-- ==== Sys2Proof/Laws/Codec.lean ====
section
/-! SUPPORT. The laws of the instruction word's fields and of the opcode map. -/

namespace Sys2Proof

/-- Slicing a packed word gives its fields back (R59). -/
@[simp] theorem fieldsOf_packFields (f : Fields) : fieldsOf (packFields f) = f := by
  obtain ⟨a, b, c, d⟩ := f
  simp only [fieldsOf, packFields, Fields.mk.injEq]
  refine ⟨?_, ?_, ?_, ?_⟩ <;>
  · apply BitVec.eq_of_getLsbD_eq
    intro i hi
    simp only [BitVec.getLsbD_extractLsb', BitVec.getLsbD_append]
    interval_cases i <;> simp

/-- Packing a word's fields gives the word back (R59). -/
@[simp] theorem packFields_fieldsOf (w : Word) : packFields (fieldsOf w) = w := by
  apply BitVec.eq_of_getLsbD_eq
  intro i hi
  simp only [fieldsOf, packFields, BitVec.getLsbD_extractLsb', BitVec.getLsbD_append]
  interval_cases i <;> simp

/-- A word is determined by its fields. -/
theorem packFields_inj {f g : Fields} : packFields f = packFields g ↔ f = g :=
  ⟨fun h => by simpa using congrArg fieldsOf h, fun h => by rw [h]⟩

/-- Masking packed fields masks each field. -/
theorem packFields_and (f g : Fields) :
    packFields f &&& packFields g =
      packFields { op := f.op &&& g.op, o1 := f.o1 &&& g.o1, o2 := f.o2 &&& g.o2, o3 := f.o3 &&& g.o3 } := by
  apply BitVec.eq_of_getLsbD_eq
  intro i hi
  simp only [packFields, BitVec.getLsbD_and, BitVec.getLsbD_append]
  repeat' split
  all_goals rfl

/-- The fields of an instruction's encoding. -/
@[simp] theorem fieldsOf_encode (m : OpcodeMap) (i : Instr) :
    fieldsOf (encode m i) = { op := m.code i.opcode, o1 := i.operands.1, o2 := i.operands.2, o3 := 0 } :=
  fieldsOf_packFields _

/-- The fields of the mask of an instruction's used bits. -/
@[simp] theorem fieldsOf_usedBits (i : Instr) : fieldsOf i.usedBits = i.usedFields := fieldsOf_packFields _

/-- Every opcode stands in the list of all opcodes. -/
theorem Opcode.mem_all (o : Opcode) : o ∈ Opcode.all := by cases o <;> decide

/-- An injective map gives different mnemonics different codes. -/
theorem OpcodeMap.code_injective {m : OpcodeMap} (h : m.Injective) {a b : Opcode} (hab : m.code a = m.code b) : a = b :=
  List.inj_on_of_nodup_map h (Opcode.mem_all a) (Opcode.mem_all b) hab

/-- What an opcode value names has that value. -/
theorem OpcodeMap.code_of_lookup {m : OpcodeMap} {op : Byte} {o : Opcode} (h : m.lookup op = some o) : m.code o = op := by
  simpa using List.find?_some h

/-- Under an injective map a mnemonic's code names that mnemonic (R63). -/
theorem OpcodeMap.lookup_code {m : OpcodeMap} (h : m.Injective) (o : Opcode) : m.lookup (m.code o) = some o := by
  cases hl : m.lookup (m.code o) with
  | none => exact absurd (List.find?_eq_none.mp hl o (Opcode.mem_all o)) (by simp)
  | some a => rw [OpcodeMap.code_injective h (OpcodeMap.code_of_lookup hl)]

/-- The default map meets the constraints of R7. -/
theorem defaultOpcodeMap_wf : defaultOpcodeMap.wf := by decide

end Sys2Proof
end

