-- ==== Sys2Proof/Laws/State.lean ====
section
/-! SUPPORT. One lemma per field per update of the state, each true by rfl. -/

namespace Sys2Proof.Machine

section
variable (s : State)

@[simp] theorem State.setReg_cfg (i : Nat) (v : Word) : (s.setReg i v).cfg = s.cfg := rfl
@[simp] theorem State.setReg_x (i : Nat) (v : Word) : (s.setReg i v).x = cellSet 0 s.x i v := rfl
@[simp] theorem State.setReg_pc (i : Nat) (v : Word) : (s.setReg i v).pc = s.pc := rfl
@[simp] theorem State.setReg_mode (i : Nat) (v : Word) : (s.setReg i v).mode = s.mode := rfl
@[simp] theorem State.setReg_icount (i : Nat) (v : Word) : (s.setReg i v).icount = s.icount := rfl
@[simp] theorem State.setReg_mem (i : Nat) (v : Word) : (s.setReg i v).mem = s.mem := rfl
@[simp] theorem State.setReg_pt (i : Nat) (v : Word) : (s.setReg i v).pt = s.pt := rfl
@[simp] theorem State.setReg_os (i : Nat) (v : Word) : (s.setReg i v).os = s.os := rfl
@[simp] theorem State.setReg_ras (i : Nat) (v : Word) : (s.setReg i v).ras = s.ras := rfl
@[simp] theorem State.setReg_pred (i : Nat) (v : Word) : (s.setReg i v).pred = s.pred := rfl
@[simp] theorem State.setReg_btb (i : Nat) (v : Word) : (s.setReg i v).btb = s.btb := rfl
@[simp] theorem State.setReg_cache (i : Nat) (v : Word) : (s.setReg i v).cache = s.cache := rfl
@[simp] theorem State.setReg_ports (i : Nat) (v : Word) : (s.setReg i v).ports = s.ports := rfl
@[simp] theorem State.setReg_ivt (i : Nat) (v : Word) : (s.setReg i v).ivt = s.ivt := rfl
@[simp] theorem State.setReg_prot (i : Nat) (v : Word) : (s.setReg i v).prot = s.prot := rfl
@[simp] theorem State.setReg_sysout (i : Nat) (v : Word) : (s.setReg i v).sysout = s.sysout := rfl

@[simp] theorem State.setPc_cfg (v : Word) : (s.setPc v).cfg = s.cfg := rfl
@[simp] theorem State.setPc_x (v : Word) : (s.setPc v).x = s.x := rfl
@[simp] theorem State.setPc_pc (v : Word) : (s.setPc v).pc = v := rfl
@[simp] theorem State.setPc_mode (v : Word) : (s.setPc v).mode = s.mode := rfl
@[simp] theorem State.setPc_icount (v : Word) : (s.setPc v).icount = s.icount := rfl
@[simp] theorem State.setPc_mem (v : Word) : (s.setPc v).mem = s.mem := rfl
@[simp] theorem State.setPc_pt (v : Word) : (s.setPc v).pt = s.pt := rfl
@[simp] theorem State.setPc_os (v : Word) : (s.setPc v).os = s.os := rfl
@[simp] theorem State.setPc_ras (v : Word) : (s.setPc v).ras = s.ras := rfl
@[simp] theorem State.setPc_pred (v : Word) : (s.setPc v).pred = s.pred := rfl
@[simp] theorem State.setPc_btb (v : Word) : (s.setPc v).btb = s.btb := rfl
@[simp] theorem State.setPc_cache (v : Word) : (s.setPc v).cache = s.cache := rfl
@[simp] theorem State.setPc_ports (v : Word) : (s.setPc v).ports = s.ports := rfl
@[simp] theorem State.setPc_ivt (v : Word) : (s.setPc v).ivt = s.ivt := rfl
@[simp] theorem State.setPc_prot (v : Word) : (s.setPc v).prot = s.prot := rfl
@[simp] theorem State.setPc_sysout (v : Word) : (s.setPc v).sysout = s.sysout := rfl

@[simp] theorem State.setMode_cfg (m : Mode) : (s.setMode m).cfg = s.cfg := rfl
@[simp] theorem State.setMode_x (m : Mode) : (s.setMode m).x = s.x := rfl
@[simp] theorem State.setMode_pc (m : Mode) : (s.setMode m).pc = s.pc := rfl
@[simp] theorem State.setMode_mode (m : Mode) : (s.setMode m).mode = m := rfl
@[simp] theorem State.setMode_icount (m : Mode) : (s.setMode m).icount = s.icount := rfl
@[simp] theorem State.setMode_mem (m : Mode) : (s.setMode m).mem = s.mem := rfl
@[simp] theorem State.setMode_pt (m : Mode) : (s.setMode m).pt = s.pt := rfl
@[simp] theorem State.setMode_os (m : Mode) : (s.setMode m).os = s.os := rfl
@[simp] theorem State.setMode_ras (m : Mode) : (s.setMode m).ras = s.ras := rfl
@[simp] theorem State.setMode_pred (m : Mode) : (s.setMode m).pred = s.pred := rfl
@[simp] theorem State.setMode_btb (m : Mode) : (s.setMode m).btb = s.btb := rfl
@[simp] theorem State.setMode_cache (m : Mode) : (s.setMode m).cache = s.cache := rfl
@[simp] theorem State.setMode_ports (m : Mode) : (s.setMode m).ports = s.ports := rfl
@[simp] theorem State.setMode_ivt (m : Mode) : (s.setMode m).ivt = s.ivt := rfl
@[simp] theorem State.setMode_prot (m : Mode) : (s.setMode m).prot = s.prot := rfl
@[simp] theorem State.setMode_sysout (m : Mode) : (s.setMode m).sysout = s.sysout := rfl

@[simp] theorem State.countStep_cfg : (s.countStep).cfg = s.cfg := rfl
@[simp] theorem State.countStep_x : (s.countStep).x = s.x := rfl
@[simp] theorem State.countStep_pc : (s.countStep).pc = s.pc := rfl
@[simp] theorem State.countStep_mode : (s.countStep).mode = s.mode := rfl
@[simp] theorem State.countStep_icount : (s.countStep).icount = s.icount + 1 := rfl
@[simp] theorem State.countStep_mem : (s.countStep).mem = s.mem := rfl
@[simp] theorem State.countStep_pt : (s.countStep).pt = s.pt := rfl
@[simp] theorem State.countStep_os : (s.countStep).os = s.os := rfl
@[simp] theorem State.countStep_ras : (s.countStep).ras = s.ras := rfl
@[simp] theorem State.countStep_pred : (s.countStep).pred = s.pred := rfl
@[simp] theorem State.countStep_btb : (s.countStep).btb = s.btb := rfl
@[simp] theorem State.countStep_cache : (s.countStep).cache = s.cache := rfl
@[simp] theorem State.countStep_ports : (s.countStep).ports = s.ports := rfl
@[simp] theorem State.countStep_ivt : (s.countStep).ivt = s.ivt := rfl
@[simp] theorem State.countStep_prot : (s.countStep).prot = s.prot := rfl
@[simp] theorem State.countStep_sysout : (s.countStep).sysout = s.sysout := rfl

@[simp] theorem State.memWrite_cfg (a : Nat) (v : Word) : (s.memWrite a v).cfg = s.cfg := rfl
@[simp] theorem State.memWrite_x (a : Nat) (v : Word) : (s.memWrite a v).x = s.x := rfl
@[simp] theorem State.memWrite_pc (a : Nat) (v : Word) : (s.memWrite a v).pc = s.pc := rfl
@[simp] theorem State.memWrite_mode (a : Nat) (v : Word) : (s.memWrite a v).mode = s.mode := rfl
@[simp] theorem State.memWrite_icount (a : Nat) (v : Word) : (s.memWrite a v).icount = s.icount := rfl
@[simp] theorem State.memWrite_mem (a : Nat) (v : Word) : (s.memWrite a v).mem = cellSet Memory.unlisted s.mem a v := rfl
@[simp] theorem State.memWrite_pt (a : Nat) (v : Word) : (s.memWrite a v).pt = s.pt := rfl
@[simp] theorem State.memWrite_os (a : Nat) (v : Word) : (s.memWrite a v).os = s.os := rfl
@[simp] theorem State.memWrite_ras (a : Nat) (v : Word) : (s.memWrite a v).ras = s.ras := rfl
@[simp] theorem State.memWrite_pred (a : Nat) (v : Word) : (s.memWrite a v).pred = s.pred := rfl
@[simp] theorem State.memWrite_btb (a : Nat) (v : Word) : (s.memWrite a v).btb = s.btb := rfl
@[simp] theorem State.memWrite_cache (a : Nat) (v : Word) : (s.memWrite a v).cache = s.cache := rfl
@[simp] theorem State.memWrite_ports (a : Nat) (v : Word) : (s.memWrite a v).ports = s.ports := rfl
@[simp] theorem State.memWrite_ivt (a : Nat) (v : Word) : (s.memWrite a v).ivt = s.ivt := rfl
@[simp] theorem State.memWrite_prot (a : Nat) (v : Word) : (s.memWrite a v).prot = s.prot := rfl
@[simp] theorem State.memWrite_sysout (a : Nat) (v : Word) : (s.memWrite a v).sysout = s.sysout := rfl

@[simp] theorem State.setPage_cfg (n : Nat) (e : Option PageEntry) : (s.setPage n e).cfg = s.cfg := rfl
@[simp] theorem State.setPage_x (n : Nat) (e : Option PageEntry) : (s.setPage n e).x = s.x := rfl
@[simp] theorem State.setPage_pc (n : Nat) (e : Option PageEntry) : (s.setPage n e).pc = s.pc := rfl
@[simp] theorem State.setPage_mode (n : Nat) (e : Option PageEntry) : (s.setPage n e).mode = s.mode := rfl
@[simp] theorem State.setPage_icount (n : Nat) (e : Option PageEntry) : (s.setPage n e).icount = s.icount := rfl
@[simp] theorem State.setPage_mem (n : Nat) (e : Option PageEntry) : (s.setPage n e).mem = s.mem := rfl
@[simp] theorem State.setPage_pt (n : Nat) (e : Option PageEntry) : (s.setPage n e).pt = cellSet none s.pt n e := rfl
@[simp] theorem State.setPage_os (n : Nat) (e : Option PageEntry) : (s.setPage n e).os = s.os := rfl
@[simp] theorem State.setPage_ras (n : Nat) (e : Option PageEntry) : (s.setPage n e).ras = s.ras := rfl
@[simp] theorem State.setPage_pred (n : Nat) (e : Option PageEntry) : (s.setPage n e).pred = s.pred := rfl
@[simp] theorem State.setPage_btb (n : Nat) (e : Option PageEntry) : (s.setPage n e).btb = s.btb := rfl
@[simp] theorem State.setPage_cache (n : Nat) (e : Option PageEntry) : (s.setPage n e).cache = s.cache := rfl
@[simp] theorem State.setPage_ports (n : Nat) (e : Option PageEntry) : (s.setPage n e).ports = s.ports := rfl
@[simp] theorem State.setPage_ivt (n : Nat) (e : Option PageEntry) : (s.setPage n e).ivt = s.ivt := rfl
@[simp] theorem State.setPage_prot (n : Nat) (e : Option PageEntry) : (s.setPage n e).prot = s.prot := rfl
@[simp] theorem State.setPage_sysout (n : Nat) (e : Option PageEntry) : (s.setPage n e).sysout = s.sysout := rfl

@[simp] theorem State.setProt_cfg (a : Nat) (b : Bool) : (s.setProt a b).cfg = s.cfg := rfl
@[simp] theorem State.setProt_x (a : Nat) (b : Bool) : (s.setProt a b).x = s.x := rfl
@[simp] theorem State.setProt_pc (a : Nat) (b : Bool) : (s.setProt a b).pc = s.pc := rfl
@[simp] theorem State.setProt_mode (a : Nat) (b : Bool) : (s.setProt a b).mode = s.mode := rfl
@[simp] theorem State.setProt_icount (a : Nat) (b : Bool) : (s.setProt a b).icount = s.icount := rfl
@[simp] theorem State.setProt_mem (a : Nat) (b : Bool) : (s.setProt a b).mem = s.mem := rfl
@[simp] theorem State.setProt_pt (a : Nat) (b : Bool) : (s.setProt a b).pt = s.pt := rfl
@[simp] theorem State.setProt_os (a : Nat) (b : Bool) : (s.setProt a b).os = s.os := rfl
@[simp] theorem State.setProt_ras (a : Nat) (b : Bool) : (s.setProt a b).ras = s.ras := rfl
@[simp] theorem State.setProt_pred (a : Nat) (b : Bool) : (s.setProt a b).pred = s.pred := rfl
@[simp] theorem State.setProt_btb (a : Nat) (b : Bool) : (s.setProt a b).btb = s.btb := rfl
@[simp] theorem State.setProt_cache (a : Nat) (b : Bool) : (s.setProt a b).cache = s.cache := rfl
@[simp] theorem State.setProt_ports (a : Nat) (b : Bool) : (s.setProt a b).ports = s.ports := rfl
@[simp] theorem State.setProt_ivt (a : Nat) (b : Bool) : (s.setProt a b).ivt = s.ivt := rfl
@[simp] theorem State.setProt_prot (a : Nat) (b : Bool) : (s.setProt a b).prot = cellSet false s.prot a b := rfl
@[simp] theorem State.setProt_sysout (a : Nat) (b : Bool) : (s.setProt a b).sysout = s.sysout := rfl

@[simp] theorem State.appendOS_cfg (v : Word) : (s.appendOS v).cfg = s.cfg := rfl
@[simp] theorem State.appendOS_x (v : Word) : (s.appendOS v).x = s.x := rfl
@[simp] theorem State.appendOS_pc (v : Word) : (s.appendOS v).pc = s.pc := rfl
@[simp] theorem State.appendOS_mode (v : Word) : (s.appendOS v).mode = s.mode := rfl
@[simp] theorem State.appendOS_icount (v : Word) : (s.appendOS v).icount = s.icount := rfl
@[simp] theorem State.appendOS_mem (v : Word) : (s.appendOS v).mem = s.mem := rfl
@[simp] theorem State.appendOS_pt (v : Word) : (s.appendOS v).pt = s.pt := rfl
@[simp] theorem State.appendOS_os (v : Word) : (s.appendOS v).os = s.os ++ [v] := rfl
@[simp] theorem State.appendOS_ras (v : Word) : (s.appendOS v).ras = s.ras := rfl
@[simp] theorem State.appendOS_pred (v : Word) : (s.appendOS v).pred = s.pred := rfl
@[simp] theorem State.appendOS_btb (v : Word) : (s.appendOS v).btb = s.btb := rfl
@[simp] theorem State.appendOS_cache (v : Word) : (s.appendOS v).cache = s.cache := rfl
@[simp] theorem State.appendOS_ports (v : Word) : (s.appendOS v).ports = s.ports := rfl
@[simp] theorem State.appendOS_ivt (v : Word) : (s.appendOS v).ivt = s.ivt := rfl
@[simp] theorem State.appendOS_prot (v : Word) : (s.appendOS v).prot = s.prot := rfl
@[simp] theorem State.appendOS_sysout (v : Word) : (s.appendOS v).sysout = s.sysout := rfl

@[simp] theorem State.dropOS_cfg : (s.dropOS).cfg = s.cfg := rfl
@[simp] theorem State.dropOS_x : (s.dropOS).x = s.x := rfl
@[simp] theorem State.dropOS_pc : (s.dropOS).pc = s.pc := rfl
@[simp] theorem State.dropOS_mode : (s.dropOS).mode = s.mode := rfl
@[simp] theorem State.dropOS_icount : (s.dropOS).icount = s.icount := rfl
@[simp] theorem State.dropOS_mem : (s.dropOS).mem = s.mem := rfl
@[simp] theorem State.dropOS_pt : (s.dropOS).pt = s.pt := rfl
@[simp] theorem State.dropOS_os : (s.dropOS).os = s.os.dropLast := rfl
@[simp] theorem State.dropOS_ras : (s.dropOS).ras = s.ras := rfl
@[simp] theorem State.dropOS_pred : (s.dropOS).pred = s.pred := rfl
@[simp] theorem State.dropOS_btb : (s.dropOS).btb = s.btb := rfl
@[simp] theorem State.dropOS_cache : (s.dropOS).cache = s.cache := rfl
@[simp] theorem State.dropOS_ports : (s.dropOS).ports = s.ports := rfl
@[simp] theorem State.dropOS_ivt : (s.dropOS).ivt = s.ivt := rfl
@[simp] theorem State.dropOS_prot : (s.dropOS).prot = s.prot := rfl
@[simp] theorem State.dropOS_sysout : (s.dropOS).sysout = s.sysout := rfl

@[simp] theorem State.pushRAS_cfg (v : Word) : (s.pushRAS v).cfg = s.cfg := rfl
@[simp] theorem State.pushRAS_x (v : Word) : (s.pushRAS v).x = s.x := rfl
@[simp] theorem State.pushRAS_pc (v : Word) : (s.pushRAS v).pc = s.pc := rfl
@[simp] theorem State.pushRAS_mode (v : Word) : (s.pushRAS v).mode = s.mode := rfl
@[simp] theorem State.pushRAS_icount (v : Word) : (s.pushRAS v).icount = s.icount := rfl
@[simp] theorem State.pushRAS_mem (v : Word) : (s.pushRAS v).mem = s.mem := rfl
@[simp] theorem State.pushRAS_pt (v : Word) : (s.pushRAS v).pt = s.pt := rfl
@[simp] theorem State.pushRAS_os (v : Word) : (s.pushRAS v).os = s.os := rfl
@[simp] theorem State.pushRAS_ras (v : Word) : (s.pushRAS v).ras = s.ras ++ [v] := rfl
@[simp] theorem State.pushRAS_pred (v : Word) : (s.pushRAS v).pred = s.pred := rfl
@[simp] theorem State.pushRAS_btb (v : Word) : (s.pushRAS v).btb = s.btb := rfl
@[simp] theorem State.pushRAS_cache (v : Word) : (s.pushRAS v).cache = s.cache := rfl
@[simp] theorem State.pushRAS_ports (v : Word) : (s.pushRAS v).ports = s.ports := rfl
@[simp] theorem State.pushRAS_ivt (v : Word) : (s.pushRAS v).ivt = s.ivt := rfl
@[simp] theorem State.pushRAS_prot (v : Word) : (s.pushRAS v).prot = s.prot := rfl
@[simp] theorem State.pushRAS_sysout (v : Word) : (s.pushRAS v).sysout = s.sysout := rfl

@[simp] theorem State.dropRAS_cfg : (s.dropRAS).cfg = s.cfg := rfl
@[simp] theorem State.dropRAS_x : (s.dropRAS).x = s.x := rfl
@[simp] theorem State.dropRAS_pc : (s.dropRAS).pc = s.pc := rfl
@[simp] theorem State.dropRAS_mode : (s.dropRAS).mode = s.mode := rfl
@[simp] theorem State.dropRAS_icount : (s.dropRAS).icount = s.icount := rfl
@[simp] theorem State.dropRAS_mem : (s.dropRAS).mem = s.mem := rfl
@[simp] theorem State.dropRAS_pt : (s.dropRAS).pt = s.pt := rfl
@[simp] theorem State.dropRAS_os : (s.dropRAS).os = s.os := rfl
@[simp] theorem State.dropRAS_ras : (s.dropRAS).ras = s.ras.dropLast := rfl
@[simp] theorem State.dropRAS_pred : (s.dropRAS).pred = s.pred := rfl
@[simp] theorem State.dropRAS_btb : (s.dropRAS).btb = s.btb := rfl
@[simp] theorem State.dropRAS_cache : (s.dropRAS).cache = s.cache := rfl
@[simp] theorem State.dropRAS_ports : (s.dropRAS).ports = s.ports := rfl
@[simp] theorem State.dropRAS_ivt : (s.dropRAS).ivt = s.ivt := rfl
@[simp] theorem State.dropRAS_prot : (s.dropRAS).prot = s.prot := rfl
@[simp] theorem State.dropRAS_sysout : (s.dropRAS).sysout = s.sysout := rfl

@[simp] theorem State.clearPred_cfg (k : Nat) : (s.clearPred k).cfg = s.cfg := rfl
@[simp] theorem State.clearPred_x (k : Nat) : (s.clearPred k).x = s.x := rfl
@[simp] theorem State.clearPred_pc (k : Nat) : (s.clearPred k).pc = s.pc := rfl
@[simp] theorem State.clearPred_mode (k : Nat) : (s.clearPred k).mode = s.mode := rfl
@[simp] theorem State.clearPred_icount (k : Nat) : (s.clearPred k).icount = s.icount := rfl
@[simp] theorem State.clearPred_mem (k : Nat) : (s.clearPred k).mem = s.mem := rfl
@[simp] theorem State.clearPred_pt (k : Nat) : (s.clearPred k).pt = s.pt := rfl
@[simp] theorem State.clearPred_os (k : Nat) : (s.clearPred k).os = s.os := rfl
@[simp] theorem State.clearPred_ras (k : Nat) : (s.clearPred k).ras = s.ras := rfl
@[simp] theorem State.clearPred_pred (k : Nat) : (s.clearPred k).pred = cellSet false s.pred k false := rfl
@[simp] theorem State.clearPred_btb (k : Nat) : (s.clearPred k).btb = s.btb := rfl
@[simp] theorem State.clearPred_cache (k : Nat) : (s.clearPred k).cache = s.cache := rfl
@[simp] theorem State.clearPred_ports (k : Nat) : (s.clearPred k).ports = s.ports := rfl
@[simp] theorem State.clearPred_ivt (k : Nat) : (s.clearPred k).ivt = s.ivt := rfl
@[simp] theorem State.clearPred_prot (k : Nat) : (s.clearPred k).prot = s.prot := rfl
@[simp] theorem State.clearPred_sysout (k : Nat) : (s.clearPred k).sysout = s.sysout := rfl

@[simp] theorem State.recordBranch_cfg : (s.recordBranch).cfg = s.cfg := rfl
@[simp] theorem State.recordBranch_x : (s.recordBranch).x = s.x := rfl
@[simp] theorem State.recordBranch_pc : (s.recordBranch).pc = s.pc := rfl
@[simp] theorem State.recordBranch_mode : (s.recordBranch).mode = s.mode := rfl
@[simp] theorem State.recordBranch_icount : (s.recordBranch).icount = s.icount := rfl
@[simp] theorem State.recordBranch_mem : (s.recordBranch).mem = s.mem := rfl
@[simp] theorem State.recordBranch_pt : (s.recordBranch).pt = s.pt := rfl
@[simp] theorem State.recordBranch_os : (s.recordBranch).os = s.os := rfl
@[simp] theorem State.recordBranch_ras : (s.recordBranch).ras = s.ras := rfl
@[simp] theorem State.recordBranch_pred : (s.recordBranch).pred = s.pred := rfl
@[simp] theorem State.recordBranch_btb : (s.recordBranch).btb = cellSet 0 s.btb (s.pc.toNat % s.cfg.btbSize) s.pc := rfl
@[simp] theorem State.recordBranch_cache : (s.recordBranch).cache = s.cache := rfl
@[simp] theorem State.recordBranch_ports : (s.recordBranch).ports = s.ports := rfl
@[simp] theorem State.recordBranch_ivt : (s.recordBranch).ivt = s.ivt := rfl
@[simp] theorem State.recordBranch_prot : (s.recordBranch).prot = s.prot := rfl
@[simp] theorem State.recordBranch_sysout : (s.recordBranch).sysout = s.sysout := rfl

@[simp] theorem State.setCache_cfg (k : Nat) (v : Word) : (s.setCache k v).cfg = s.cfg := rfl
@[simp] theorem State.setCache_x (k : Nat) (v : Word) : (s.setCache k v).x = s.x := rfl
@[simp] theorem State.setCache_pc (k : Nat) (v : Word) : (s.setCache k v).pc = s.pc := rfl
@[simp] theorem State.setCache_mode (k : Nat) (v : Word) : (s.setCache k v).mode = s.mode := rfl
@[simp] theorem State.setCache_icount (k : Nat) (v : Word) : (s.setCache k v).icount = s.icount := rfl
@[simp] theorem State.setCache_mem (k : Nat) (v : Word) : (s.setCache k v).mem = s.mem := rfl
@[simp] theorem State.setCache_pt (k : Nat) (v : Word) : (s.setCache k v).pt = s.pt := rfl
@[simp] theorem State.setCache_os (k : Nat) (v : Word) : (s.setCache k v).os = s.os := rfl
@[simp] theorem State.setCache_ras (k : Nat) (v : Word) : (s.setCache k v).ras = s.ras := rfl
@[simp] theorem State.setCache_pred (k : Nat) (v : Word) : (s.setCache k v).pred = s.pred := rfl
@[simp] theorem State.setCache_btb (k : Nat) (v : Word) : (s.setCache k v).btb = s.btb := rfl
@[simp] theorem State.setCache_cache (k : Nat) (v : Word) : (s.setCache k v).cache = cellSet 0 s.cache k v := rfl
@[simp] theorem State.setCache_ports (k : Nat) (v : Word) : (s.setCache k v).ports = s.ports := rfl
@[simp] theorem State.setCache_ivt (k : Nat) (v : Word) : (s.setCache k v).ivt = s.ivt := rfl
@[simp] theorem State.setCache_prot (k : Nat) (v : Word) : (s.setCache k v).prot = s.prot := rfl
@[simp] theorem State.setCache_sysout (k : Nat) (v : Word) : (s.setCache k v).sysout = s.sysout := rfl

@[simp] theorem State.setPort_cfg (p : Nat) (v : Word) : (s.setPort p v).cfg = s.cfg := rfl
@[simp] theorem State.setPort_x (p : Nat) (v : Word) : (s.setPort p v).x = s.x := rfl
@[simp] theorem State.setPort_pc (p : Nat) (v : Word) : (s.setPort p v).pc = s.pc := rfl
@[simp] theorem State.setPort_mode (p : Nat) (v : Word) : (s.setPort p v).mode = s.mode := rfl
@[simp] theorem State.setPort_icount (p : Nat) (v : Word) : (s.setPort p v).icount = s.icount := rfl
@[simp] theorem State.setPort_mem (p : Nat) (v : Word) : (s.setPort p v).mem = s.mem := rfl
@[simp] theorem State.setPort_pt (p : Nat) (v : Word) : (s.setPort p v).pt = s.pt := rfl
@[simp] theorem State.setPort_os (p : Nat) (v : Word) : (s.setPort p v).os = s.os := rfl
@[simp] theorem State.setPort_ras (p : Nat) (v : Word) : (s.setPort p v).ras = s.ras := rfl
@[simp] theorem State.setPort_pred (p : Nat) (v : Word) : (s.setPort p v).pred = s.pred := rfl
@[simp] theorem State.setPort_btb (p : Nat) (v : Word) : (s.setPort p v).btb = s.btb := rfl
@[simp] theorem State.setPort_cache (p : Nat) (v : Word) : (s.setPort p v).cache = s.cache := rfl
@[simp] theorem State.setPort_ports (p : Nat) (v : Word) : (s.setPort p v).ports = cellSet 0 s.ports p v := rfl
@[simp] theorem State.setPort_ivt (p : Nat) (v : Word) : (s.setPort p v).ivt = s.ivt := rfl
@[simp] theorem State.setPort_prot (p : Nat) (v : Word) : (s.setPort p v).prot = s.prot := rfl
@[simp] theorem State.setPort_sysout (p : Nat) (v : Word) : (s.setPort p v).sysout = s.sysout := rfl

@[simp] theorem State.emit_cfg (v : Word) : (s.emit v).cfg = s.cfg := rfl
@[simp] theorem State.emit_x (v : Word) : (s.emit v).x = s.x := rfl
@[simp] theorem State.emit_pc (v : Word) : (s.emit v).pc = s.pc := rfl
@[simp] theorem State.emit_mode (v : Word) : (s.emit v).mode = s.mode := rfl
@[simp] theorem State.emit_icount (v : Word) : (s.emit v).icount = s.icount := rfl
@[simp] theorem State.emit_mem (v : Word) : (s.emit v).mem = s.mem := rfl
@[simp] theorem State.emit_pt (v : Word) : (s.emit v).pt = s.pt := rfl
@[simp] theorem State.emit_os (v : Word) : (s.emit v).os = s.os := rfl
@[simp] theorem State.emit_ras (v : Word) : (s.emit v).ras = s.ras := rfl
@[simp] theorem State.emit_pred (v : Word) : (s.emit v).pred = s.pred := rfl
@[simp] theorem State.emit_btb (v : Word) : (s.emit v).btb = s.btb := rfl
@[simp] theorem State.emit_cache (v : Word) : (s.emit v).cache = s.cache := rfl
@[simp] theorem State.emit_ports (v : Word) : (s.emit v).ports = s.ports := rfl
@[simp] theorem State.emit_ivt (v : Word) : (s.emit v).ivt = s.ivt := rfl
@[simp] theorem State.emit_prot (v : Word) : (s.emit v).prot = s.prot := rfl
@[simp] theorem State.emit_sysout (v : Word) : (s.emit v).sysout = s.sysout ++ [v] := rfl

end

end Sys2Proof.Machine
end

