-- ==== Sys2Proof/Laws/Ops.lean ====
section
/-! SUPPORT. One lemma per shared operation: reads after writes, what each check and stack operation can answer, what a
translation answers and depends on, and when a meaning, a step and a run end in a next state. -/

namespace Sys2Proof.Machine

section
variable {s t : State} {f : Fault}

/-! ### Reads after writes -/

@[simp] theorem reg_setReg_same (s : State) (i : Nat) (v : Word) : (s.setReg i v).reg i = v := cellAt_cellSet_same _ _ _
theorem reg_setReg_ne (s : State) (v : Word) {i j : Nat} (h : j ≠ i) : (s.setReg i v).reg j = s.reg j :=
  cellAt_cellSet_ne _ _ h
@[simp] theorem memRead_memWrite_same (s : State) (a : Nat) (v : Word) : (s.memWrite a v).memRead a = v :=
  cellAt_cellSet_same _ _ _
theorem memRead_memWrite_ne (s : State) (v : Word) {a b : Nat} (h : b ≠ a) : (s.memWrite a v).memRead b = s.memRead b :=
  cellAt_cellSet_ne _ _ h
@[simp] theorem pageEntry_setPage_same (s : State) (n : Nat) (e : Option PageEntry) : (s.setPage n e).pageEntry n = e :=
  cellAt_cellSet_same _ _ _
theorem pageEntry_setPage_ne (s : State) (e : Option PageEntry) {n m : Nat} (h : m ≠ n) :
    (s.setPage n e).pageEntry m = s.pageEntry m := cellAt_cellSet_ne _ _ h
@[simp] theorem protBit_setProt_same (s : State) (a : Nat) (b : Bool) : (s.setProt a b).protBit a = b :=
  cellAt_cellSet_same _ _ _
@[simp] theorem predTaken_clearPred_same (s : State) (k : Nat) : (s.clearPred k).predTaken k = false :=
  cellAt_cellSet_same s.pred k false
theorem predTaken_clearPred_ne (s : State) {k j : Nat} (h : j ≠ k) : (s.clearPred k).predTaken j = s.predTaken j :=
  cellAt_cellSet_ne s.pred false h
@[simp] theorem btbEntry_recordBranch_same (s : State) :
    s.recordBranch.btbEntry (s.pc.toNat % s.cfg.btbSize) = s.pc := cellAt_cellSet_same _ _ _
theorem btbEntry_recordBranch_ne (s : State) {n : Nat} (h : n ≠ s.pc.toNat % s.cfg.btbSize) :
    s.recordBranch.btbEntry n = s.btbEntry n := cellAt_cellSet_ne _ _ h
@[simp] theorem cacheSlot_setCache_same (s : State) (k : Nat) (v : Word) : (s.setCache k v).cacheSlot k = v :=
  cellAt_cellSet_same _ _ _
theorem cacheSlot_setCache_ne (s : State) (v : Word) {k j : Nat} (h : j ≠ k) :
    (s.setCache k v).cacheSlot j = s.cacheSlot j := cellAt_cellSet_ne _ _ h
@[simp] theorem port_setPort_same (s : State) (p : Nat) (v : Word) : (s.setPort p v).port p = v :=
  cellAt_cellSet_same _ _ _
theorem port_setPort_ne (s : State) (v : Word) {p q : Nat} (h : q ≠ p) : (s.setPort p v).port q = s.port q :=
  cellAt_cellSet_ne _ _ h

/-! ### Outcomes -/

@[simp] theorem settle_eq_next {m : Except Fault State} : settle m = .next t ↔ m = .ok t := by
  cases m <;> simp [settle]

@[simp] theorem settle_eq_fault {m : Except Fault State} : settle m = .fault f ↔ m = .error f := by
  cases m <;> simp [settle]

@[simp] theorem settle_ne_refused {m : Except Fault State} {r : Refusal} : settle m ≠ .refused r := by
  cases m <;> simp [settle]

/-- A sequence of checks answers exactly when both parts do. -/
theorem bind_eq_ok {α β : Type} {m : Except Fault α} {g : α → Except Fault β} {b : β} :
    (m >>= g) = .ok b ↔ ∃ a, m = .ok a ∧ g a = .ok b := by
  cases m <;> simp [bind, Except.bind]

/-- A sequence of checks faults with the first fault. -/
theorem bind_eq_error {α β : Type} {m : Except Fault α} {g : α → Except Fault β} :
    (m >>= g) = .error f ↔ m = .error f ∨ ∃ a, m = .ok a ∧ g a = .error f := by
  cases m <;> simp [bind, Except.bind]

/-- A check followed by a computation that cannot fault. -/
@[simp] theorem map_eq_ok {α β : Type} {m : Except Fault α} {g : α → β} {b : β} :
    (g <$> m) = .ok b ↔ ∃ a, m = .ok a ∧ g a = b := by
  cases m <;> simp

@[simp] theorem map_eq_error {α β : Type} {m : Except Fault α} {g : α → β} : (g <$> m) = .error f ↔ m = .error f := by
  cases m <;> simp

@[simp] theorem pure_eq_ok {α : Type} (a b : α) : ((pure a : Except Fault α) = .ok b) ↔ a = b := by
  simp [pure, Except.pure]

@[simp] theorem pure_ne_error {α : Type} (a : α) : (pure a : Except Fault α) ≠ .error f := by
  simp [pure, Except.pure]

/-! ### Checks -/

theorem guard_eq_ok {p : Prop} [Decidable p] {e : Fault} {u : Unit} :
    (if p then (.ok () : Except Fault Unit) else .error e) = .ok u ↔ p := by
  split <;> simp [*]

theorem guard_eq_error {p : Prop} [Decidable p] {e : Fault} :
    (if p then (.ok () : Except Fault Unit) else .error e) = .error f ↔ ¬p ∧ f = e := by
  split <;> simp [*, eq_comm]

@[simp] theorem checkReg_eq_ok {o : Byte} {u : Unit} : checkReg s o = .ok u ↔ o.toNat < s.cfg.numRegs := guard_eq_ok

@[simp] theorem checkReg_eq_error {o : Byte} : checkReg s o = .error f ↔ s.cfg.numRegs ≤ o.toNat ∧ f = .invalidRegister := by
  simp [checkReg, guard_eq_error]

@[simp] theorem checkSlot_eq_ok {o : Byte} {u : Unit} : checkSlot s o = .ok u ↔ o.toNat < s.cfg.cacheSlots := guard_eq_ok

@[simp] theorem checkSlot_eq_error {o : Byte} : checkSlot s o = .error f ↔ s.cfg.cacheSlots ≤ o.toNat ∧ f = .outOfRangeMemory := by
  simp [checkSlot, guard_eq_error]

@[simp] theorem checkPort_eq_ok {o : Byte} {u : Unit} : checkPort s o = .ok u ↔ o.toNat < s.cfg.numPorts := guard_eq_ok

@[simp] theorem checkPort_eq_error {o : Byte} : checkPort s o = .error f ↔ s.cfg.numPorts ≤ o.toNat ∧ f = .outOfRangePort := by
  simp [checkPort, guard_eq_error]

@[simp] theorem checkVector_eq_ok {n : Nat} {u : Unit} : checkVector s n = .ok u ↔ n < s.cfg.ivtSize := guard_eq_ok

@[simp] theorem checkVector_eq_error {n : Nat} : checkVector s n = .error f ↔ s.cfg.ivtSize ≤ n ∧ f = .outOfRangeInterrupt := by
  simp [checkVector, guard_eq_error]

@[simp] theorem checkRoom_eq_ok {u : Unit} : checkRoom s = .ok u ↔ s.os.length < s.cfg.stackDepth := guard_eq_ok

@[simp] theorem checkRoom_eq_error : checkRoom s = .error f ↔ s.cfg.stackDepth ≤ s.os.length ∧ f = .stackOverflow := by
  simp [checkRoom, guard_eq_error]

@[simp] theorem checkDivisor_eq_ok {b : Word} {u : Unit} : checkDivisor b = .ok u ↔ b ≠ 0 := guard_eq_ok

@[simp] theorem checkDivisor_eq_error {b : Word} : checkDivisor b = .error f ↔ b = 0 ∧ f = .divisionByZero := by
  unfold checkDivisor
  rw [guard_eq_error]
  simp

@[simp] theorem checkPrivileged_eq_ok {u : Unit} : checkPrivileged s = .ok u ↔ s.mode = .privileged := by
  unfold checkPrivileged; split <;> simp_all

@[simp] theorem checkPrivileged_eq_error : checkPrivileged s = .error f ↔ s.mode = .user ∧ f = .privilegeFault := by
  unfold checkPrivileged; split <;> rename_i h <;> simp [h, eq_comm]

/-! ### Stacks, interrupt entry and return -/

@[simp] theorem pushOS_eq_ok {v : Word} :
    pushOS s v = .ok t ↔ s.os.length < s.cfg.stackDepth ∧ t = s.appendOS v := by
  simp [pushOS, @eq_comm _ t]

@[simp] theorem pushOS_eq_error {v : Word} :
    pushOS s v = .error f ↔ s.cfg.stackDepth ≤ s.os.length ∧ f = .stackOverflow := by
  simp [pushOS]

@[simp] theorem popOS_eq_ok {v : Word} :
    popOS s = .ok (v, t) ↔ s.os.getLast? = some v ∧ t = s.dropOS := by
  unfold popOS; split <;> simp_all [eq_comm]

@[simp] theorem popOS_eq_error : popOS s = .error f ↔ s.os = [] ∧ f = .stackUnderflow := by
  unfold popOS
  cases h : s.os.getLast? with
  | none => simp_all [eq_comm]
  | some v =>
    have : s.os ≠ [] := by rintro e; simp [e] at h
    simp [this]

@[simp] theorem handleInterrupt_eq_ok {n : Nat} :
    handleInterrupt s n = .ok t ↔ n < s.cfg.ivtSize ∧ s.os.length < s.cfg.stackDepth ∧
      t = (((s.appendOS s.pc).setPc (s.vector n)).setMode .privileged) := by
  simp [handleInterrupt, bind_eq_ok]
  tauto

@[simp] theorem handleInterrupt_eq_error {n : Nat} :
    handleInterrupt s n = .error f ↔ (s.cfg.ivtSize ≤ n ∧ f = .outOfRangeInterrupt) ∨
      (n < s.cfg.ivtSize ∧ s.cfg.stackDepth ≤ s.os.length ∧ f = .stackOverflow) := by
  simp [handleInterrupt, bind_eq_error]

@[simp] theorem returnFromOS_eq_ok :
    returnFromOS s = .ok t ↔ ∃ v, s.os.getLast? = some v ∧ t = (s.dropOS.dropRAS).setPc v := by
  simp [returnFromOS, @eq_comm _ t]

@[simp] theorem returnFromOS_eq_error : returnFromOS s = .error f ↔ s.os = [] ∧ f = .stackUnderflow := by
  simp [returnFromOS]

/-! ### Translation -/

/-- A translation that answers, answers a physical address below MEM_SIZE (R42). -/
theorem translateAddr_lt {va : Word} {k : AccessKind} {pa : Nat} (h : translateAddr s va k = .ok pa) : pa < s.cfg.memSize := by
  unfold translateAddr translatePaged translateFlat at h
  repeat' split at h
  all_goals first | cases h; done | (cases h; omega)

/-- A translation reads the configuration, the page table and the protection bits, and nothing else. -/
theorem translateAddr_congr (hc : s.cfg = t.cfg) (hp : s.pt = t.pt) (hb : s.prot = t.prot) (va : Word) (k : AccessKind) :
    translateAddr s va k = translateAddr t va k := by
  cases s; cases t
  subst hc hp hb
  rfl

/-- The redirect of the jumps answers exactly when the target translates for Execute. -/
theorem redirect_eq_ok {o : Byte} :
    redirect s o = .ok t ↔ ∃ pa, translateAddr s (regOf s o) .execute = .ok pa ∧ t = s.setPc (targetWord pa) := by
  simp [redirect, indirectAddress, @eq_comm _ t]

theorem redirect_eq_error {o : Byte} :
    redirect s o = .error f ↔ translateAddr s (regOf s o) .execute = .error f := by
  simp [redirect, indirectAddress]

/-- A target below 2^32 stands in `pc` exactly. -/
theorem targetWord_toNat {pa : Nat} (h : pa < 2 ^ 32) : (targetWord pa).toNat = pa := by
  simp [targetWord]; omega

/-! ### Fetch, step and run -/

theorem fetch_eq_ok {w : Word} :
    fetch s = .ok w ↔ ∃ pa, translateAddr s s.pc .execute = .ok pa ∧ s.memRead pa = w := by
  simp [fetch]

theorem fetch_eq_error : fetch s = .error f ↔ translateAddr s s.pc .execute = .error f := by
  simp [fetch]

theorem retire_eq_next {o : Host.Outcome State Fault Refusal} :
    retire o = .next t ↔ ∃ u, o = .next u ∧ t = u.countStep := by
  cases o <;> simp [retire, eq_comm]

theorem retire_eq_fault {o : Host.Outcome State Fault Refusal} : retire o = .fault f ↔ o = .fault f := by
  cases o <;> simp [retire]

/-- A step answers a next state exactly when the fetched word decodes and its instruction does so in the execute phase. -/
theorem step_eq_next :
    step s = .next t ↔ ∃ w i u, fetch s = .ok w ∧ decode s.cfg.opcodeMap w = .ok i ∧
      exec i (s.setPc (s.pc + 1)) = .next u ∧ t = u.countStep := by
  unfold step
  cases hf : fetch s with
  | error e => simp
  | ok w =>
    cases hd : decode s.cfg.opcodeMap w with
    | error e => simp [executeWord, hd]
    | ok i => simp [executeWord, hd, retire_eq_next, advance]

/-- A step faults in fetch, in decode, or in the execute phase. -/
theorem step_eq_fault :
    step s = .fault f ↔ fetch s = .error f ∨
      (∃ w e, fetch s = .ok w ∧ decode s.cfg.opcodeMap w = .error e ∧ f = .invalidOpcode) ∨
      (∃ w i, fetch s = .ok w ∧ decode s.cfg.opcodeMap w = .ok i ∧ exec i (s.setPc (s.pc + 1)) = .fault f) := by
  unfold step
  cases hf : fetch s with
  | error e => simp
  | ok w =>
    cases hd : decode s.cfg.opcodeMap w with
    | error e => simp [executeWord, hd, eq_comm]
    | ok i => simp [executeWord, hd, retire_eq_fault, advance]

/-! ### One iteration of the run loop (R113) and of the host's `Core.run` -/

theorem core_run_succ (k : Nat) (h : step s = .next t) :
    Host.Core.run Sys2Proof.core (k + 1) s = Host.Core.run Sys2Proof.core k t := by
  have h' : Sys2Proof.core.step s = .next t := h
  simp only [Host.Core.run]
  rw [h']

theorem runLoop_budget (n : Nat) (s : State) :
    runLoop 0 n s = ({ haltReason := .budgetExhausted, instructionsExecuted := BitVec.ofNat 32 n }, s) := rfl

theorem runLoop_pcOutOfRange (left n : Nat) (h : s.cfg.memSize ≤ s.pc.toNat) :
    runLoop (left + 1) n s = ({ haltReason := .pcOutOfRange, instructionsExecuted := BitVec.ofNat 32 n }, s) := by
  simp [runLoop, h]

theorem runLoop_next (left n : Nat) (h : s.pc.toNat < s.cfg.memSize) (hs : step s = .next t) :
    runLoop (left + 1) n s = runLoop left (n + 1) t := by
  simp [runLoop, Nat.not_le.mpr h, hs]

theorem runLoop_fault (left n : Nat) (h : s.pc.toNat < s.cfg.memSize) (hs : step s = .fault f) :
    runLoop (left + 1) n s = ({ haltReason := .fault f, instructionsExecuted := BitVec.ofNat 32 n }, s) := by
  simp [runLoop, Nat.not_le.mpr h, hs]

end

end Sys2Proof.Machine
end

