-- ==== Sys2Proof/Laws/Exec.lean ====
section
/-! SUPPORT. One inversion lemma per instruction: when its meaning ends in a next state, and which one. -/

namespace Sys2Proof.Machine

section
variable {s t : State} {o1 o2 : Byte}

theorem exec_load_eq_next : exec (.load o1 o2) s = .next t ↔ o1.toNat < s.cfg.numRegs ∧ o2.toNat < s.cfg.numRegs ∧
    ∃ pa, translateAddr s (regOf s o2) .read = .ok pa ∧ t = setRegOf s o1 (s.memRead pa) := by
  simp [exec, execLoad, bind_eq_ok, indirectAddress, @eq_comm _ t]

theorem exec_store_eq_next : exec (.store o1 o2) s = .next t ↔ o1.toNat < s.cfg.numRegs ∧ o2.toNat < s.cfg.numRegs ∧
    ∃ pa, translateAddr s (regOf s o2) .write = .ok pa ∧ t = s.memWrite pa (regOf s o1) := by
  simp [exec, execStore, bind_eq_ok, indirectAddress, @eq_comm _ t]

theorem exec_add_eq_next : exec (.add o1 o2) s = .next t ↔ o1.toNat < s.cfg.numRegs ∧ o2.toNat < s.cfg.numRegs ∧
    t = setRegOf s o1 (aluAdd (regOf s o1) (regOf s o2)) := by
  simp [exec, execAdd, aluOp, bind_eq_ok, @eq_comm _ t]

theorem exec_sub_eq_next : exec (.sub o1 o2) s = .next t ↔ o1.toNat < s.cfg.numRegs ∧ o2.toNat < s.cfg.numRegs ∧
    t = setRegOf s o1 (aluSub (regOf s o1) (regOf s o2)) := by
  simp [exec, execSub, aluOp, bind_eq_ok, @eq_comm _ t]

theorem exec_mul_eq_next : exec (.mul o1 o2) s = .next t ↔ o1.toNat < s.cfg.numRegs ∧ o2.toNat < s.cfg.numRegs ∧
    t = setRegOf s o1 (aluMul (regOf s o1) (regOf s o2)) := by
  simp [exec, execMul, aluOp, bind_eq_ok, @eq_comm _ t]

theorem exec_div_eq_next : exec (.div o1 o2) s = .next t ↔ o1.toNat < s.cfg.numRegs ∧ o2.toNat < s.cfg.numRegs ∧
    regOf s o2 ≠ 0 ∧ t = setRegOf s o1 (aluDiv (regOf s o1) (regOf s o2)) := by
  simp [exec, execDiv, bind_eq_ok, @eq_comm _ t]

theorem exec_jump_eq_next : exec (.jump o1) s = .next t ↔ o1.toNat < s.cfg.numRegs ∧
    ∃ pa, translateAddr s (regOf s o1) .execute = .ok pa ∧ t = s.recordBranch.setPc (targetWord pa) := by
  simp [exec, execJump, bind_eq_ok, indirectAddress, @eq_comm _ t]

/-- The four outcomes of R84's table, as two: the branch redirects to its translated target when the slot predicts
taken or the condition holds, and it clears the slot when the condition is false. -/
theorem exec_jumpIfZero_eq_next : exec (.jumpIfZero o1 o2) s = .next t ↔
    o1.toNat < s.cfg.numRegs ∧ o2.toNat < s.cfg.numRegs ∧ ∃ u,
      (if s.predTaken (predSlot s) = true ∨ regOf s o1 = 0 then
        ∃ pa, translateAddr s (regOf s o2) .execute = .ok pa ∧ u = s.setPc (targetWord pa) else u = s) ∧
      t = if regOf s o1 = 0 then u else u.clearPred (predSlot s) := by
  have ht : ∀ v va k, translateAddr (s.setPc v) va k = translateAddr s va k := fun v va k => translateAddr_congr rfl rfl rfl va k
  have hr : ∀ v o, regOf (s.setPc v) o = regOf s o := fun _ _ => rfl
  simp only [exec, execJumpIfZero, settle_eq_next, bind_eq_ok, checkReg_eq_ok, exists_const]
  by_cases hp : s.predTaken (predSlot s) = true <;> by_cases hz : regOf s o1 = 0
  · simp only [speculate, branchIfZero, isZero, hp, hz, redirect_eq_ok, true_or, if_true]
    constructor
    · rintro ⟨h1, h2, _, ⟨pa, h3, rfl⟩, h4⟩
      rw [hr, hz] at h4
      obtain ⟨pb, h5, rfl⟩ := redirect_eq_ok.mp h4
      rw [ht, hr, h3] at h5
      cases h5
      exact ⟨h1, h2, _, ⟨pa, h3, rfl⟩, rfl⟩
    · rintro ⟨h1, h2, _, ⟨pa, h3, rfl⟩, rfl⟩
      refine ⟨h1, h2, _, ⟨pa, h3, rfl⟩, ?_⟩
      rw [hr, hz]
      exact redirect_eq_ok.mpr ⟨pa, by rw [ht, hr]; exact h3, rfl⟩
  · have hn : ¬ regOf s o1 = 0#32 := hz
    simp [speculate, branchIfZero, isZero, hp, hn, hr, redirect_eq_ok, @eq_comm _ t]
  · simp [speculate, branchIfZero, isZero, hp, hz, redirect_eq_ok]
  · have hn : ¬ regOf s o1 = 0#32 := hz
    simp [speculate, branchIfZero, isZero, hp, hn, @eq_comm _ t]

theorem exec_push_eq_next : exec (.push o1) s = .next t ↔ o1.toNat < s.cfg.numRegs ∧
    s.os.length < s.cfg.stackDepth ∧ t = s.appendOS (regOf s o1) := by
  simp [exec, execPush, bind_eq_ok]

theorem exec_pop_eq_next : exec (.pop o1) s = .next t ↔ o1.toNat < s.cfg.numRegs ∧
    ∃ v, s.os.getLast? = some v ∧ t = setRegOf s.dropOS o1 v := by
  simp [exec, execPop, bind_eq_ok, @eq_comm _ t]

theorem exec_call_eq_next : exec (.call o1) s = .next t ↔ o1.toNat < s.cfg.numRegs ∧
    s.os.length < s.cfg.stackDepth ∧ ∃ pa, translateAddr s (regOf s o1) .execute = .ok pa ∧
      t = (((s.appendOS s.pc).pushRAS s.pc).setPc (targetWord pa)) := by
  simp [exec, execCall, bind_eq_ok, indirectAddress, @eq_comm _ t]
  tauto

theorem exec_ret_eq_next : exec .ret s = .next t ↔
    ∃ v, s.os.getLast? = some v ∧ t = (s.dropOS.dropRAS).setPc v := by
  simp [exec, execRet]

theorem exec_sysReg_eq_next : exec (.sysReg o2) s = .next t ↔ o2.toNat < s.cfg.numRegs ∧ t = s.emit (regOf s o2) := by
  simp [exec, execSysReg, @eq_comm _ t]

theorem exec_sysMem_eq_next : exec (.sysMem o2) s = .next t ↔
    ∃ pa, translateAddr s (o2.setWidth 32) .read = .ok pa ∧ t = s.emit (s.memRead pa) := by
  simp [exec, execSysMem, immediateAddress, @eq_comm _ t]

theorem exec_cacheRead_eq_next : exec (.cacheRead o1 o2) s = .next t ↔ o2.toNat < s.cfg.numRegs ∧
    o1.toNat < s.cfg.cacheSlots ∧
    ∃ pa, translateAddr s (regOf s o2) .read = .ok pa ∧ t = s.setCache o1.toNat (s.memRead pa) := by
  simp [exec, execCacheRead, bind_eq_ok, indirectAddress, @eq_comm _ t]

theorem exec_cacheWrite_eq_next : exec (.cacheWrite o1 o2) s = .next t ↔ o2.toNat < s.cfg.numRegs ∧
    o1.toNat < s.cfg.cacheSlots ∧
    ∃ pa, translateAddr s (regOf s o2) .write = .ok pa ∧ t = s.memWrite pa (s.cacheSlot o1.toNat) := by
  simp [exec, execCacheWrite, bind_eq_ok, indirectAddress, @eq_comm _ t]

theorem exec_privileged_eq_next : exec .privileged s = .next t ↔ s.mode = .privileged ∧ t = s := by
  simp [exec, execPrivileged, @eq_comm _ t]

theorem exec_enterPrivileged_eq_next : exec .enterPrivileged s = .next t ↔ t = s.setMode .privileged := by
  simp [exec, execEnterPrivileged, @eq_comm _ t]

theorem exec_exitPrivileged_eq_next : exec .exitPrivileged s = .next t ↔ t = s.setMode .user := by
  simp [exec, execExitPrivileged, @eq_comm _ t]

theorem exec_inPort_eq_next : exec (.inPort o1 o2) s = .next t ↔ o1.toNat < s.cfg.numRegs ∧
    o2.toNat < s.cfg.numPorts ∧ t = setRegOf s o1 (s.port o2.toNat) := by
  simp [exec, execIn, bind_eq_ok, @eq_comm _ t]

theorem exec_outPort_eq_next : exec (.outPort o1 o2) s = .next t ↔ o1.toNat < s.cfg.numRegs ∧
    o2.toNat < s.cfg.numPorts ∧ t = s.setPort o2.toNat (regOf s o1) := by
  simp [exec, execOut, bind_eq_ok, @eq_comm _ t]

theorem exec_int_eq_next : exec (.int o1) s = .next t ↔ o1.toNat < s.cfg.ivtSize ∧ s.os.length < s.cfg.stackDepth ∧
    t = (((s.appendOS s.pc).setPc (s.vector o1.toNat)).setMode .privileged) := by
  simp [exec, execInt]

end

end Sys2Proof.Machine
end

