-- ==== Sys2Proof/Laws/FetchPlace.lean ====
section
/-! SUPPORT. Placing an instruction where the next step fetches it does so, from every state whose configuration meets
R7. -/

namespace Sys2Proof.Machine

theorem translateAddr_memWrite (s : State) (a : Nat) (w va : Word) (k : AccessKind) :
    translateAddr (s.memWrite a w) va k = translateAddr s va k := translateAddr_congr rfl rfl rfl va k

/-- A state whose `pc` translates for Execute fetches the word written at that address. -/
theorem fetch_memWrite {s : State} {pa : Nat} (h : translateAddr s s.pc .execute = .ok pa) (w : Word) :
    fetch (s.memWrite pa w) = .ok w := by
  rw [fetch_eq_ok]
  exact ⟨pa, by rw [translateAddr_memWrite]; exact h, memRead_memWrite_same s pa w⟩

/-- The page that `openFetch` maps translates for Execute to the same address. -/
theorem translateAddr_openPage {s : State} (hs : s.cfg.scheme = .paged)
    (hm : s.pc.toNat < s.cfg.memSize) (hv : s.pc.toNat / s.cfg.pageSize < s.cfg.ptSize) :
    translateAddr (s.setPage (s.pc.toNat / s.cfg.pageSize) (some (openPage (s.pc.toNat / s.cfg.pageSize)))) s.pc .execute
      = .ok s.pc.toNat := by
  have h1 : s.pc.toNat / s.cfg.pageSize % 4294967296 = s.pc.toNat / s.cfg.pageSize :=
    Nat.mod_eq_of_lt (Nat.lt_of_le_of_lt (Nat.div_le_self _ _) s.pc.isLt)
  have h2 : s.pc.toNat / s.cfg.pageSize * s.cfg.pageSize + s.pc.toNat % s.cfg.pageSize = s.pc.toNat :=
    Nat.div_add_mod' _ _
  simp [translateAddr, hs, translatePaged, openPage, KindSet.has, KindSet.all, h1, h2, Nat.not_le.mpr hm, Nat.not_le.mpr hv]

/-- `openFetch` makes the address of `pc` fetchable. -/
theorem translateAddr_openFetch {s : State} (h : s.cfg.wf) :
    ∃ pa, translateAddr (openFetch s) (openFetch s).pc .execute = .ok pa := by
  obtain ⟨-, hmem, hpt, -⟩ := h
  cases hs : s.cfg.scheme with
  | paged =>
    rw [hs] at hmem
    unfold openFetch
    by_cases hc : s.pc.toNat < s.cfg.memSize ∧ s.pc.toNat / s.cfg.pageSize < s.cfg.ptSize
    · exact ⟨s.pc.toNat, by simpa [hs, hc] using translateAddr_openPage hs hc.1 hc.2⟩
    · have h0 := translateAddr_openPage (s := s.setPc 0) hs (by simp [hmem]) (by simpa using Nat.lt_of_lt_of_le Nat.one_pos hpt)
      simp at h0
      exact ⟨0, by simpa [hs, hc] using h0⟩
  | flat =>
    rw [hs] at hmem
    unfold openFetch
    by_cases hc : s.pc.toNat < s.cfg.memSize
    · exact ⟨s.pc.toNat, by simp [hs, hc, translateAddr, translateFlat, Nat.not_le.mpr hc]⟩
    · have h0 : s.cfg.memSize ≠ 0 := by simp [hmem]
      exact ⟨0, by simp [hs, hc, translateAddr, translateFlat, h0]⟩

/-- The next fetch reads the placed word. -/
theorem fetch_withFetchWord {s : State} (h : s.cfg.wf) (nbits w : Nat) :
    fetch (s.withFetchWord nbits w) = .ok (tableWord nbits w) := by
  unfold State.withFetchWord placeFetchWord
  split
  · rename_i pa hp
    exact fetch_memWrite hp _
  · obtain ⟨pa, hp⟩ := translateAddr_openFetch h
    rw [hp]
    exact fetch_memWrite hp _

end Sys2Proof.Machine
end

