-- ==== Sys2Proof/Laws/PerInstr.lean ====
section
/-! SUPPORT. Statements about every instruction as syntax, one lemma per constructor. -/

namespace Sys2Proof.Laws.OperandsReadBack

/-- Reading the operand fields that the encoder gives an instruction gives the instruction back, whatever stands in the
opcode field and in the unused third operand. -/
def Statement (i : Instr) : Prop :=
  ∀ op o3 : Byte, instrOf i.opcode { op := op, o1 := i.operands.1, o2 := i.operands.2, o3 := o3 } = .ok i

theorem load (o1 o2 : Byte) : Statement (.load o1 o2) := fun _ _ => rfl
theorem store (o1 o2 : Byte) : Statement (.store o1 o2) := fun _ _ => rfl
theorem add (o1 o2 : Byte) : Statement (.add o1 o2) := fun _ _ => rfl
theorem sub (o1 o2 : Byte) : Statement (.sub o1 o2) := fun _ _ => rfl
theorem mul (o1 o2 : Byte) : Statement (.mul o1 o2) := fun _ _ => rfl
theorem div (o1 o2 : Byte) : Statement (.div o1 o2) := fun _ _ => rfl
theorem jump (o : Byte) : Statement (.jump o) := fun _ _ => rfl
theorem jumpIfZero (o1 o2 : Byte) : Statement (.jumpIfZero o1 o2) := fun _ _ => rfl
theorem push (o : Byte) : Statement (.push o) := fun _ _ => rfl
theorem pop (o : Byte) : Statement (.pop o) := fun _ _ => rfl
theorem call (o : Byte) : Statement (.call o) := fun _ _ => rfl
theorem ret : Statement (.ret) := fun _ _ => rfl
theorem sysReg (o : Byte) : Statement (.sysReg o) := fun _ _ => rfl
theorem sysMem (o : Byte) : Statement (.sysMem o) := fun _ _ => rfl
theorem cacheRead (o1 o2 : Byte) : Statement (.cacheRead o1 o2) := fun _ _ => rfl
theorem cacheWrite (o1 o2 : Byte) : Statement (.cacheWrite o1 o2) := fun _ _ => rfl
theorem privileged : Statement (.privileged) := fun _ _ => rfl
theorem enterPrivileged : Statement (.enterPrivileged) := fun _ _ => rfl
theorem exitPrivileged : Statement (.exitPrivileged) := fun _ _ => rfl
theorem inPort (o1 o2 : Byte) : Statement (.inPort o1 o2) := fun _ _ => rfl
theorem outPort (o1 o2 : Byte) : Statement (.outPort o1 o2) := fun _ _ => rfl
theorem int (o : Byte) : Statement (.int o) := fun _ _ => rfl

end Sys2Proof.Laws.OperandsReadBack
end

