-- ==== Sys2Proof/Machine/Assembly.lean ====
section
/-! DEFINITION. The assembler notation of R71: how the spec writes an instruction. Its encoding column is `encode`. -/

namespace Sys2Proof

/-- A register name, `r0` to `r255` (R71). -/
def regName (o : Byte) : String := "r" ++ toString o.toNat

/-- The text of an instruction in the notation of R71, numbers in decimal. -/
def Instr.asm : Instr → String
  | .load o1 o2 => "LOAD " ++ regName o1 ++ ", [" ++ regName o2 ++ "]"
  | .store o1 o2 => "STORE " ++ regName o1 ++ ", [" ++ regName o2 ++ "]"
  | .add o1 o2 => "ADD " ++ regName o1 ++ ", " ++ regName o2
  | .sub o1 o2 => "SUB " ++ regName o1 ++ ", " ++ regName o2
  | .mul o1 o2 => "MUL " ++ regName o1 ++ ", " ++ regName o2
  | .div o1 o2 => "DIV " ++ regName o1 ++ ", " ++ regName o2
  | .jump o1 => "JUMP " ++ regName o1
  | .jumpIfZero o1 o2 => "JUMP_IF_ZERO " ++ regName o1 ++ ", " ++ regName o2
  | .push o1 => "PUSH " ++ regName o1
  | .pop o1 => "POP " ++ regName o1
  | .call o1 => "CALL " ++ regName o1
  | .ret => "RET"
  | .sysReg o2 => "SYS 0x01, " ++ regName o2
  | .sysMem o2 => "SYS 0x02, " ++ toString o2.toNat
  | .cacheRead o1 o2 => "CACHE_READ " ++ toString o1.toNat ++ ", [" ++ regName o2 ++ "]"
  | .cacheWrite o1 o2 => "CACHE_WRITE " ++ toString o1.toNat ++ ", [" ++ regName o2 ++ "]"
  | .privileged => "PRIVILEGED"
  | .enterPrivileged => "ENTER_PRIVILEGED"
  | .exitPrivileged => "EXIT_PRIVILEGED"
  | .inPort o1 o2 => "IN " ++ regName o1 ++ ", " ++ toString o2.toNat
  | .outPort o1 o2 => "OUT " ++ regName o1 ++ ", " ++ toString o2.toNat
  | .int o1 => "INT " ++ toString o1.toNat

end Sys2Proof
end

