-- ==== Sys2Proof/Tests/Slice0.lean ====
section
/-! SUPPORT. Tests: words written out from the encoding tables of the spec, ill-formed instructions refused, one-step
vectors of spec section 95 (its row names stand in the comments), and a witness for every statement with hypotheses. -/

namespace Sys2Proof.Tests

open Sys2Proof.Machine

/-! ### Helpers -/

/-- S0, the standard start of spec section 95: PAGED, virtual page 0 on physical page 0 with every permission. -/
def s0 : State := State.reset.setPage 0 (some (openPage 0))

/-- The FLAT start of spec section 95. -/
def flat0 : State := State.construct Config.flat LaunchParams.default

/-- "`ia = a`, word `w`" of spec section 95. -/
def atWord (s : State) (a : Nat) (w : Word) : State := (s.setPc (BitVec.ofNat 32 a)).memWrite a w

/-- `mapPage(vp, pp, perms)` on a state. -/
def mapped (s : State) (vp pp : Nat) (r w x : Bool) : State :=
  s.setPage vp (some { physicalPage := BitVec.ofNat 32 pp, permissions := { read := r, write := w, execute := x } })

/-- The operand stack `D10` of spec section 95. -/
def d10 : List Word := [1, 2, 3, 4, 5, 6, 7, 8, 9, 10]

/-- The outcome is a next state that `p` holds of. -/
def endsIn (o : Host.Outcome State Fault Refusal) (p : State → Bool) : Bool :=
  match o with
  | .next t => p t
  | .fault _ => false
  | .refused _ => false

/-- The outcome is the fault `f`. -/
def faultsWith (o : Host.Outcome State Fault Refusal) (f : Fault) : Bool :=
  match o with
  | .next _ => false
  | .fault g => decide (g = f)
  | .refused _ => false

/-- The instruction a word decodes to under the default map. -/
def reads (w : Word) : Option Instr := (decode defaultOpcodeMap w).toOption

/-! ### Decoding: one word per row of the opcode table, field by field (R59, R62, R66) -/

theorem test_decode_load : reads 0x01010200 = some (.load 1 2) := by decide
theorem test_decode_store : reads 0x02030400 = some (.store 3 4) := by decide
theorem test_decode_add : reads 0x03010200 = some (.add 1 2) := by decide
theorem test_decode_sub : reads 0x04020100 = some (.sub 2 1) := by decide
theorem test_decode_mul : reads 0x05040200 = some (.mul 4 2) := by decide
theorem test_decode_div : reads 0x060F0100 = some (.div 15 1) := by decide
theorem test_decode_jump : reads 0x07050000 = some (.jump 5) := by decide
theorem test_decode_jumpIfZero : reads 0x08020500 = some (.jumpIfZero 2 5) := by decide
theorem test_decode_push : reads 0x09040000 = some (.push 4) := by decide
theorem test_decode_pop : reads 0x0A020000 = some (.pop 2) := by decide
theorem test_decode_call : reads 0x0B010000 = some (.call 1) := by decide
theorem test_decode_ret : reads 0x0C000000 = some .ret := by decide
theorem test_decode_sysReg : reads 0x0D010600 = some (.sysReg 6) := by decide
theorem test_decode_sysMem : reads 0x0D02FF00 = some (.sysMem 255) := by decide
theorem test_decode_cacheRead : reads 0x0EFF0200 = some (.cacheRead 255 2) := by decide
theorem test_decode_cacheWrite : reads 0x0F050300 = some (.cacheWrite 5 3) := by decide
theorem test_decode_privileged : reads 0x10000000 = some .privileged := by decide
theorem test_decode_enterPrivileged : reads 0x11000000 = some .enterPrivileged := by decide
theorem test_decode_exitPrivileged : reads 0x12000000 = some .exitPrivileged := by decide
theorem test_decode_in : reads 0x13020300 = some (.inPort 2 3) := by decide
theorem test_decode_out : reads 0x14010F00 = some (.outPort 1 15) := by decide
theorem test_decode_int : reads 0x15100000 = some (.int 16) := by decide

/-- E1 to E6: `o3` is ignored, and what is no instruction. -/
theorem test_decode_edges : reads 0x03010201 = some (.add 1 2) ∧ reads 0x0CFFFFFF = some .ret ∧
    decode defaultOpcodeMap 0x00000000 = .error (.noOpcode 0x00) ∧
    decode defaultOpcodeMap 0x16000000 = .error (.noOpcode 0x16) ∧
    decode defaultOpcodeMap 0xFFFFFFFF = .error (.noOpcode 0xFF) ∧
    decode defaultOpcodeMap 0x0D001000 = .error (.noSysSubOp 0x00) ∧
    decode defaultOpcodeMap 0x0D030000 = .error (.noSysSubOp 0x03) := by decide

/-- Encoding writes 0 into unused fields (R71). -/
theorem test_encode : encode defaultOpcodeMap (.jumpIfZero 1 2) = 0x08010200 ∧ encode defaultOpcodeMap .ret = 0x0C000000 ∧
    encode defaultOpcodeMap (.sysMem 3) = 0x0D020300 ∧ encode defaultOpcodeMap (.int 2) = 0x15020000 := by decide

/-- The table's numbering: bit 0 is the least significant bit of the one word. -/
theorem test_decodeTableWord : decodeTableWord 32 0x14010300 = some (.outPort 1 3) ∧
    decodeTableWord 32 0x16000000 = none := by decide

/-! ### Well-formedness: every check refuses an ill-formed instruction -/

theorem test_wf_first_register : (Instr.add 16 0).wellFormed Config.paged = false ∧
    (Instr.add 15 0).wellFormed Config.paged = true ∧ (Instr.add 8 0).wellFormed Config.flat = false := by decide
theorem test_wf_second_register : (Instr.load 0 16).wellFormed Config.paged = false ∧
    (Instr.load 0 15).wellFormed Config.paged = true := by decide
theorem test_wf_one_register : (Instr.jump 16).wellFormed Config.paged = false ∧
    (Instr.sysReg 16).wellFormed Config.paged = false ∧ (Instr.cacheWrite 0 16).wellFormed Config.paged = false := by decide
theorem test_wf_slot : (Instr.cacheRead 16 0).wellFormed { Config.paged with cacheSlots := 16 } = false ∧
    (Instr.cacheRead 255 0).wellFormed Config.paged = true := by decide
theorem test_wf_port : (Instr.inPort 0 16).wellFormed Config.paged = false ∧
    (Instr.outPort 0 15).wellFormed Config.paged = true := by decide
theorem test_wf_vector : (Instr.int 16).wellFormed Config.paged = false ∧
    (Instr.int 15).wellFormed Config.paged = true := by decide

/-! ### One step per instruction -/

/-- LS1, LS5. -/
theorem test_load : endsIn (step (atWord ((s0.setReg 2 12).memWrite 12 0xDEADBEEF) 0 0x01010200))
      (fun t => t.reg 1 == 0xDEADBEEF && t.reg 2 == 12 && t.pc == 1 && t.icount == 1) = true ∧
    faultsWith (step (atWord ((mapped s0 1 1 false true false).setReg 2 256) 0 0x01010200)) .permissionFault = true := by
  decide
/-- LS2: source and destination are the same register. -/
theorem test_load_same : endsIn (step (atWord ((s0.setReg 1 12).memWrite 12 9) 0 0x01010100)) (fun t => t.reg 1 == 9) = true := by
  decide
/-- LS3, W2, LS12. -/
theorem test_store : endsIn (step (atWord ((s0.setReg 1 0x55).setReg 2 100) 0 0x02010200))
      (fun t => t.memRead 100 == 0x55 && t.memRead 0 == 0x02010200) = true ∧
    faultsWith (step (atWord ((s0.setReg 1 0x55).setReg 2 256) 0 0x02010200)) .pageFault = true ∧
    faultsWith (step (atWord ((s0.setReg 1 7).setReg 2 0x80000000) 0 0x02010200)) .outOfRangePage = true := by decide
/-- W1, A2, W6. -/
theorem test_add : endsIn (step (atWord ((s0.setReg 1 5).setReg 2 7) 0 0x03010200)) (fun t => t.reg 1 == 12 && t.reg 2 == 7) = true ∧
    endsIn (step (atWord ((s0.setReg 1 0xFFFFFFFF).setReg 2 2) 0 0x03010200)) (fun t => t.reg 1 == 1) = true ∧
    endsIn (step (atWord (s0.setReg 1 0x80000001) 0 0x03010100)) (fun t => t.reg 1 == 2) = true := by decide
/-- E7, E9, E10. -/
theorem test_add_registers : faultsWith (step (atWord s0 0 0x03100200)) .invalidRegister = true ∧
    faultsWith (step (atWord flat0 0 0x03080100)) .invalidRegister = true ∧
    endsIn (step (atWord ((flat0.setReg 7 1).setReg 1 2) 0 0x03070100)) (fun t => t.reg 7 == 3) = true := by decide
/-- A4, A6. -/
theorem test_sub : endsIn (step (atWord ((s0.setReg 1 2).setReg 2 5) 0 0x04010200)) (fun t => t.reg 1 == 0xFFFFFFFD && t.reg 2 == 5) = true ∧
    endsIn (step (atWord (s0.setReg 1 1234) 0 0x04010100)) (fun t => t.reg 1 == 0) = true := by decide
/-- A7, A8. -/
theorem test_mul : endsIn (step (atWord ((s0.setReg 1 0x12345).setReg 2 0x10000) 0 0x05010200)) (fun t => t.reg 1 == 0x23450000) = true ∧
    endsIn (step (atWord ((s0.setReg 1 0xFFFFFFFF).setReg 2 0xFFFFFFFF) 0 0x05010200)) (fun t => t.reg 1 == 1) = true := by decide
/-- A11, A14. -/
theorem test_div : endsIn (step (atWord ((s0.setReg 1 17).setReg 2 5) 0 0x06010200)) (fun t => t.reg 1 == 3 && t.reg 2 == 5) = true ∧
    endsIn (step (atWord ((s0.setReg 1 0x80000000).setReg 2 0xFFFFFFFF) 0 0x06010200)) (fun t => t.reg 1 == 0) = true := by decide
/-- W7, E8. -/
theorem test_div_faults : faultsWith (step (atWord (s0.setReg 1 17) 0 0x06010200)) .divisionByZero = true ∧
    faultsWith (step (atWord s0 0 0x06100000)) .invalidRegister = true := by decide
/-- B1, B3, B4. -/
theorem test_jump : endsIn (step (atWord (s0.setReg 5 40) 3 0x07050000)) (fun t => t.pc == 40 && t.btbEntry 4 == 4) = true ∧
    endsIn (step (atWord (s0.setReg 1 2) 15 0x07010000)) (fun t => t.pc == 2 && t.btbEntry 0 == 16) = true ∧
    faultsWith (step (atWord (s0.setReg 1 300) 20 0x07010000)) .pageFault = true := by decide
/-- B7: the physical target stands in `pc`. -/
theorem test_jump_physical : endsIn (step (atWord ((mapped s0 1 0 false false true).setReg 1 259) 5 0x07010000))
    (fun t => t.pc == 3 && t.btbEntry 6 == 6) = true := by decide
/-- J1, J2, J5, J6, J10. -/
theorem test_jumpIfZero : endsIn (step (atWord (s0.setReg 2 20) 7 0x08010200)) (fun t => t.pc == 20) = true ∧
    endsIn (step (atWord ((s0.setReg 2 20).setReg 1 3) 7 0x08010200)) (fun t => t.pc == 8) = true ∧
    endsIn (step (atWord ((s0.setReg 2 300).setReg 1 3) 7 0x08010200)) (fun t => t.pc == 8) = true ∧
    faultsWith (step (atWord (s0.setReg 2 300) 7 0x08010200)) .pageFault = true ∧
    faultsWith (step (atWord (s0.setReg 1 3) 7 0x08011000)) .invalidRegister = true := by decide
/-- J3, J4, J7, J8. -/
theorem test_jumpIfZero_predicted :
    endsIn (step (atWord { s0.setReg 2 20 with pred := [(8, true)] } 7 0x08010200)) (fun t => t.pc == 20 && t.predTaken 8) = true ∧
    endsIn (step (atWord { (s0.setReg 2 20).setReg 1 3 with pred := [(8, true)] } 7 0x08010200))
      (fun t => t.pc == 20 && !t.predTaken 8 && t.btb.isEmpty) = true ∧
    faultsWith (step (atWord { (s0.setReg 2 300).setReg 1 3 with pred := [(8, true)] } 7 0x08010200)) .pageFault = true ∧
    endsIn (step (atWord { (s0.setReg 2 20).setReg 1 3 with pred := [(8, true)] } 23 0x08010200))
      (fun t => t.pc == 20 && !t.predTaken 8) = true := by decide
/-- S1, S2, S15. -/
theorem test_push : endsIn (step (atWord (s0.setReg 4 9) 0 0x09040000)) (fun t => t.os == [9] && t.ras == []) = true ∧
    faultsWith (step (atWord { s0 with os := d10 } 0 0x09040000)) .stackOverflow = true ∧
    faultsWith (step (atWord s0 0 0x09100000)) .invalidRegister = true := by decide
/-- S3, S4, S16. -/
theorem test_pop : endsIn (step (atWord { s0 with os := [9, 4] } 0 0x0A020000)) (fun t => t.reg 2 == 4 && t.os == [9]) = true ∧
    faultsWith (step (atWord s0 0 0x0A020000)) .stackUnderflow = true ∧
    endsIn (step (atWord { s0 with os := [3], ras := [3] } 0 0x0A020000)) (fun t => t.reg 2 == 3 && t.ras == [3]) = true := by
  decide
/-- S5, S7. -/
theorem test_call : endsIn (step (atWord (s0.setReg 1 10) 2 0x0B010000)) (fun t => t.pc == 10 && t.os == [3] && t.ras == [3]) = true ∧
    faultsWith (step (atWord (s0.setReg 1 300) 2 0x0B010000)) .pageFault = true := by decide
/-- S6, S8. -/
theorem test_call_room : faultsWith (step (atWord { s0.setReg 1 300 with os := d10 } 2 0x0B010000)) .stackOverflow = true ∧
    endsIn (step (atWord { s0.setReg 1 10 with os := d10.dropLast } 2 0x0B010000)) (fun t => t.os.length == 10) = true := by decide
/-- S9, S10, S11, S12. -/
theorem test_ret : endsIn (step (atWord { s0 with os := [3], ras := [3] } 10 0x0C000000)) (fun t => t.pc == 3 && t.os == [] && t.ras == []) = true ∧
    faultsWith (step (atWord { s0 with ras := [5] } 10 0x0C000000)) .stackUnderflow = true ∧
    endsIn (step (atWord { s0 with os := [7] } 10 0x0C000000)) (fun t => t.pc == 7 && t.ras == []) = true ∧
    endsIn (step (atWord { s0 with os := [7], ras := [3] } 10 0x0C000000)) (fun t => t.pc == 7 && t.ras == []) = true := by decide
/-- Y1, Y2. -/
theorem test_sysReg : endsIn (step (atWord (s0.setReg 6 0x2A) 0 0x0D010600)) (fun t => t.sysout == [0x2A]) = true ∧
    faultsWith (step (atWord s0 0 0x0D011000)) .invalidRegister = true := by decide
/-- Y3, Y4, Y5. -/
theorem test_sysMem : endsIn (step (atWord s0 3 0x0D020300)) (fun t => t.sysout == [0x0D020300]) = true ∧
    endsIn (step (atWord s0 0 0x0D02FF00)) (fun t => t.sysout == [0]) = true ∧
    faultsWith (step (atWord (mapped s0 0 0 false true true) 0 0x0D020500)) .permissionFault = true := by decide
/-- C1, C3, C4. -/
theorem test_cacheRead : endsIn (step (atWord ((s0.setReg 2 12).memWrite 12 77) 0 0x0E050200)) (fun t => t.cacheSlot 5 == 77) = true ∧
    endsIn (step (atWord ((s0.setReg 2 12).memWrite 12 1) 0 0x0EFF0200)) (fun t => t.cacheSlot 255 == 1) = true ∧
    faultsWith (step (atWord (s0.setReg 2 300) 0 0x0E000200)) .pageFault = true := by decide
/-- C6: the slot is checked before the translation. -/
theorem test_cacheRead_slot : faultsWith (step (atWord { s0.setReg 2 300 with cfg := { Config.paged with cacheSlots := 16 } } 0 0x0E100200))
    .outOfRangeMemory = true := by decide
/-- C2, C5, C7. -/
theorem test_cacheWrite : endsIn (step (atWord ((s0.setReg 3 20).setCache 5 77) 0 0x0F050300)) (fun t => t.memRead 20 == 77) = true ∧
    faultsWith (step (atWord s0 0 0x0F001000)) .invalidRegister = true ∧
    faultsWith (step (atWord ((mapped s0 1 1 true false false).setReg 3 256) 0 0x0F000300)) .permissionFault = true := by decide
/-- P1, P2. -/
theorem test_privileged : faultsWith (step (atWord s0 0 0x10000000)) .privilegeFault = true ∧
    endsIn (step (atWord (s0.setMode .privileged) 0 0x10000000)) (fun t => t.pc == 1 && t.mode == .privileged) = true := by decide
/-- P3, P4. -/
theorem test_enterPrivileged : endsIn (step (atWord s0 0 0x11000000)) (fun t => t.mode == .privileged) = true ∧
    endsIn (step (atWord (s0.setMode .privileged) 0 0x11000000)) (fun t => t.mode == .privileged) = true := by decide
/-- P5, P6. -/
theorem test_exitPrivileged : endsIn (step (atWord (s0.setMode .privileged) 0 0x12000000)) (fun t => t.mode == .user) = true ∧
    endsIn (step (atWord s0 0 0x12000000)) (fun t => t.mode == .user) = true := by decide
/-- P8, P9, P10. -/
theorem test_in : endsIn (step (atWord (s0.setPort 3 0xAB) 0 0x13020300)) (fun t => t.reg 2 == 0xAB) = true ∧
    faultsWith (step (atWord s0 0 0x13011000)) .outOfRangePort = true ∧
    faultsWith (step (atWord s0 0 0x13101000)) .invalidRegister = true := by decide
/-- P7, P11, P12. -/
theorem test_out : endsIn (step (atWord (s0.setReg 1 0xAB) 0 0x14010300)) (fun t => t.port 3 == 0xAB && t.reg 1 == 0xAB) = true ∧
    endsIn (step (atWord (s0.setReg 1 5) 0 0x14010F00)) (fun t => t.port 15 == 5) = true ∧
    faultsWith (step (atWord (s0.setReg 1 5) 0 0x1401FF00)) .outOfRangePort = true := by decide
/-- I1, I7. -/
theorem test_int : endsIn (step (atWord { s0 with ivt := [(2, 30)] } 4 0x15020000))
      (fun t => t.os == [5] && t.pc == 30 && t.mode == .privileged && t.ras == []) = true ∧
    endsIn (step (atWord { s0.setMode .privileged with ivt := [(2, 30)], os := [9] } 4 0x15020000)) (fun t => t.os == [9, 5] && t.pc == 30) = true := by
  decide
/-- I2, I4, I5. -/
theorem test_int_faults : faultsWith (step (atWord s0 0 0x15100000)) .outOfRangeInterrupt = true ∧
    faultsWith (step (atWord { s0 with os := d10 } 0 0x15020000)) .stackOverflow = true ∧
    faultsWith (step (atWord { s0 with os := d10 } 0 0x15100000)) .outOfRangeInterrupt = true := by decide

/-! ### Fetch, reset, placing a word, host calls -/

/-- E2, E11, E12, E13, E15. -/
theorem test_fetch : faultsWith (step s0) .invalidOpcode = true ∧ faultsWith (step (s0.setPc 256)) .pageFault = true ∧
    faultsWith (step ((mapped s0 1 1 true true false).setPc 256)) .permissionFault = true ∧
    faultsWith (step (s0.setPc 65536)) .outOfRangePage = true ∧
    endsIn (step (((mapped s0 8 0 false false true).setPc 2048).memWrite 0 0x03010200)) (fun t => t.pc == 2049) = true := by decide
/-- At reset nothing is mapped, so the first fetch faults until the host has mapped a page (R133). -/
theorem test_step_at_reset : faultsWith (step State.reset) .pageFault = true := by decide
theorem test_withFetchWord : endsIn (step (State.reset.withFetchWord 32 0x11000000)) (fun t => t.pc == 1 && t.mode == .privileged) = true := by
  decide
/-- H2, H4, E14. -/
theorem test_run : (run 100 (atWord ((s0.setReg 1 5).setReg 2 7) 0 0x03010200)).1 =
      { haltReason := .fault .invalidOpcode, instructionsExecuted := 1 } ∧
    (run 100 (s0.setPc 65536)).1 = { haltReason := .pcOutOfRange, instructionsExecuted := 0 } := by decide
/-- H5, H9. -/
theorem test_loadProgram : loadProgram [1, 2] State.reset = (State.reset, some .pageFault) ∧
    loadProgram [5, 6, 7] { flat0 with prot := [(1, true)] } = ({ flat0 with prot := [(1, true)], mem := [(0, 5)] }, some .permissionFault) := by
  decide
/-- The assembly form of R70. -/
theorem test_asm : (Instr.jumpIfZero 1 2).asm = "JUMP_IF_ZERO r1, r2" := by decide

/-! ### Witnesses: for every statement with hypotheses, operands and states that meet those of each clause -/

/-- Register 15 holds the last mapped address. -/
def wOk : State := s0.setReg 15 255

/-- Register 15 holds the first unmapped address. -/
def wFar : State := s0.setReg 15 256

/-- DecodeIsTheEncodingTable and DecodeOfEncodeIsIdentity. -/
theorem witness_OpcodeMap : defaultOpcodeMap.Injective ∧ { defaultOpcodeMap with load := 0x20 }.Injective := by decide

theorem witness_UndefinedWords : s0.cfg.opcodeMap = defaultOpcodeMap ∧ fetch (atWord s0 0 0x16000000) = .ok 0x16000000 ∧
    fetch (atWord s0 0 0x15FFFFFF) = .ok 0x15FFFFFF ∧ fetch (atWord s0 0 0x0D030000) = .ok 0x0D030000 := by decide

theorem witness_FetchTranslates : translateAddr (s0.setPc 256) 256 .execute = .error .pageFault ∧
    translateAddr (s0.setPc 255) 255 .execute = .ok 255 := by decide

theorem witness_StepRuns : fetch (atWord s0 255 0x11000000) = .ok 0x11000000 ∧
    decode s0.cfg.opcodeMap 0x11000000 = .ok .enterPrivileged ∧
    (∃ t, exec .enterPrivileged { atWord s0 255 0x11000000 with pc := 256 } = .next t) ∧
    fetch (atWord s0 0 0x10000000) = .ok 0x10000000 ∧ decode s0.cfg.opcodeMap 0x10000000 = .ok .privileged ∧
    exec .privileged { atWord s0 0 0x10000000 with pc := 1 } = .fault .privilegeFault :=
  ⟨by decide, by decide, ⟨_, rfl⟩, by decide, by decide, rfl⟩

/-- The clauses of PAGED translation, at 65536 and 65535, at a page without permissions, and at 2048 and 2047. -/
theorem witness_PagedTranslation : s0.cfg.scheme = .paged ∧ s0.cfg.ptSize ≤ (65536 : Word).toNat / s0.cfg.pageSize ∧
    (65535 : Word).toNat / s0.cfg.pageSize < s0.cfg.ptSize ∧ s0.pageEntry ((65535 : Word).toNat / s0.cfg.pageSize) = none ∧
    (mapped s0 1 1 false true true).pageEntry ((256 : Word).toNat / s0.cfg.pageSize) =
      some { physicalPage := 1, permissions := { read := false, write := true, execute := true } } ∧
    (mapped s0 1 8 true false false).pageEntry ((256 : Word).toNat / s0.cfg.pageSize) =
      some { physicalPage := 8, permissions := { read := true, write := false, execute := false } } ∧
    s0.cfg.memSize ≤ (8 : Word).toNat * s0.cfg.pageSize + (256 : Word).toNat % s0.cfg.pageSize ∧
    (mapped s0 1 7 true false false).pageEntry ((511 : Word).toNat / s0.cfg.pageSize) =
      some { physicalPage := 7, permissions := { read := true, write := false, execute := false } } ∧
    (7 : Word).toNat * s0.cfg.pageSize + (511 : Word).toNat % s0.cfg.pageSize < s0.cfg.memSize := by decide

theorem witness_FlatTranslation : flat0.cfg.scheme = .flat ∧ flat0.cfg.memSize ≤ (1024 : Word).toNat ∧
    (1023 : Word).toNat < flat0.cfg.memSize ∧ flat0.protBit 1023 = false ∧ (flat0.setProt 1023 true).protBit 1023 = true ∧
    flat0.cfg.protDenies.has .read = true ∧
    { Config.flat with protDenies := { read := false, write := true, execute := false } }.protDenies.has .read = false := by
  decide

/-- The register clauses of every instruction with register fields, at 16 and 15, and the translation clauses of LOAD,
STORE, JUMP, CALL, CACHE_READ and CACHE_WRITE: one translation that answers and one that faults, for every kind. -/
theorem witness_registers_and_translation : s0.cfg.numRegs ≤ (16 : Byte).toNat ∧ (15 : Byte).toNat < s0.cfg.numRegs ∧
    wOk.cfg.numRegs = s0.cfg.numRegs ∧
    (∀ k, k = .read ∨ k = .write ∨ k = .execute → translateAddr wOk (regOf wOk 15) k = .ok 255 ∧
      translateAddr wFar (regOf wFar 15) k = .error .pageFault) := by
  refine ⟨by decide, by decide, rfl, fun k hk => ?_⟩
  rcases hk with rfl | rfl | rfl <;> decide

/-- DivIsUnsignedAndFaultsOnZero, with the divisor in register 15. -/
theorem witness_Div : regOf s0 15 = 0 ∧ regOf wOk 15 ≠ 0 := by decide

/-- The four clauses of JUMP_IF_ZERO, for the slot 15 that `pc = 15` and `pc = 31` select. -/
theorem witness_JumpIfZero : (15 : Word).toNat % s0.cfg.predSize = 15 ∧ (31 : Word).toNat % s0.cfg.predSize = 15 ∧
    wOk.predTaken 15 = false ∧ regOf wOk 15 ≠ 0 ∧ regOf wOk 0 = 0 ∧ { wOk with pred := [(15, true)] }.predTaken 15 = true ∧
    translateAddr { wFar with pred := [(15, true)] } (regOf wFar 15) .execute = .error .pageFault ∧
    translateAddr { wOk with pred := [(15, true)] } (regOf wOk 15) .execute = .ok 255 := by decide

theorem witness_JumpsLeavePhysicalTargetInPc : wOk.cfg.wf ∧ (∃ t, exec (.jump 15) wOk = .next t) ∧
    (∃ t, exec (.call 15) wOk = .next t) ∧ (∃ t, exec (.jumpIfZero 0 15) wOk = .next t) ∧ regOf wOk 0 = 0 ∧
    (∃ t, exec (.jumpIfZero 15 15) { wOk with pred := [(0, true)] } = .next t) ∧
    { wOk with pred := [(0, true)] }.predTaken (wOk.pc.toNat % wOk.cfg.predSize) = true :=
  ⟨by decide, ⟨_, rfl⟩, ⟨_, rfl⟩, ⟨_, rfl⟩, by decide, ⟨_, rfl⟩, by decide⟩

/-- PUSH, POP, CALL, RET and INT with register 15: stacks at the limit, one below it, empty, and with one entry, and for
CALL one below the limit with a target that translates and with one that faults. -/
theorem witness_stacks : { wOk with os := d10 }.os.length = wOk.cfg.stackDepth ∧
    { wOk with os := d10.dropLast }.os.length < wOk.cfg.stackDepth ∧ wOk.os = [] ∧ { wOk with os := [7] }.os = [] ++ [7] ∧
    wOk.ras = [] ∧ { wOk with ras := [3, 4] }.ras = [3] ++ [4] ∧
    translateAddr { wOk with os := d10.dropLast } (regOf wOk 15) .execute = .ok 255 ∧
    { wFar with os := d10.dropLast }.os.length < wFar.cfg.stackDepth ∧
    translateAddr { wFar with os := d10.dropLast } (regOf wFar 15) .execute = .error .pageFault := by decide

/-- SysMemReportsImmediateAddress. -/
theorem witness_SysMem : (255 : Word).toNat = (255 : Byte).toNat ∧ translateAddr s0 255 .read = .ok 255 ∧
    translateAddr (mapped s0 0 0 false true true) 255 .read = .error .permissionFault := by decide

/-- CACHE_READ and CACHE_WRITE with register 15: slot 255 exists by default, and with 255 slots it does not. -/
theorem witness_cache_slots : (255 : Byte).toNat < wOk.cfg.cacheSlots ∧ (255 : Byte).toNat < wFar.cfg.cacheSlots ∧
    { wOk with cfg := { Config.paged with cacheSlots := 255 } }.cfg.cacheSlots ≤ (255 : Byte).toNat ∧
    (15 : Byte).toNat < { wOk with cfg := { Config.paged with cacheSlots := 255 } }.cfg.numRegs := by decide

theorem witness_PrivilegedChecksMode : s0.mode = .user ∧ (s0.setMode .privileged).mode = .privileged := by decide

/-- InReadsPort, OutWritesPort and IntEntersVectoredHandler, at 16 and 15. -/
theorem witness_ports_and_vectors : s0.cfg.numPorts ≤ (16 : Byte).toNat ∧ (15 : Byte).toNat < s0.cfg.numPorts ∧
    s0.cfg.ivtSize ≤ (16 : Byte).toNat ∧ (15 : Byte).toNat < s0.cfg.ivtSize := by decide

theorem witness_IllFormed : (Instr.add 15 16).wellFormed s0.cfg = false ∧ (Instr.add 15 15).wellFormed s0.cfg = true := by decide

theorem witness_OnlyMatrixFields : (∃ t, exec (.int 15) s0 = .next t) ∧ StateField.x ∉ mayWrite (.int 15) :=
  ⟨⟨_, rfl⟩, by decide⟩

/-- A step that completes (StepsKeepHostOwnedState, IcountCountsCompletedSteps, StepKeepsLaunchInvariants), from a launch
state. -/
theorem witness_step : (atWord s0 0 0x15010000).wf ∧ (∃ t, step (atWord s0 0 0x15010000) = .next t) :=
  ⟨by decide, ⟨_, rfl⟩⟩

/-- ModeChangesOnlyByItsInstructions, one instruction per case. -/
theorem witness_ModeChanges : (∃ t, exec .enterPrivileged s0 = .next t) ∧ (∃ t, exec (.int 0) s0 = .next t) ∧
    (∃ t, exec .exitPrivileged s0 = .next t) ∧ (∃ t, exec (.push 0) s0 = .next t) :=
  ⟨⟨_, rfl⟩, ⟨_, rfl⟩, ⟨_, rfl⟩, ⟨_, rfl⟩⟩

theorem witness_ModeGates : Instr.int 2 ≠ .privileged := by decide

theorem witness_NothingSetsAPredictorSlot : (hostCall .clear { s0 with pred := [(3, true)] }).predTaken 3 = true := by decide

theorem witness_HiddenState : eraseHidden s0 = eraseHidden { s0 with ras := [1], btb := [(2, 3)], icount := 4 } ∧
    s0 ≠ { s0 with ras := [1], btb := [(2, 3)], icount := 4 } := by decide

theorem witness_Construction : flat0 = State.construct Config.flat LaunchParams.default ∧ Config.flat.scheme = .flat := by decide

theorem witness_Reachable : Reachable (hostCall (.run 3) (hostCall (.loadProgram [0x11000000]) (hostCall (.mapPage 0 0 KindSet.all)
    (State.construct Config.paged { LaunchParams.default with ivtInit := [(15, 5)] })))) :=
  .call _ _ (.call _ _ (.call _ _ (.construct _ _ (by decide) (by decide))))

/-- CALL at 0 to 3, and RET at 3. -/
theorem witness_CallThenRet : fetch (atWord ((s0.setReg 1 3).memWrite 3 0x0C000000) 0 0x0B010000) = .ok 0x0B010000 ∧
    decode s0.cfg.opcodeMap 0x0B010000 = .ok (.call 1) ∧ decode s0.cfg.opcodeMap 0x0C000000 = .ok .ret ∧
    (∃ t, step (atWord ((s0.setReg 1 3).memWrite 3 0x0C000000) 0 0x0B010000) = .next t ∧ fetch t = .ok 0x0C000000) :=
  ⟨by decide, by decide, by decide, _, rfl, by decide⟩

/-- INT 15 at 4 with vector 30, and RET at 30. -/
theorem witness_IntThenRet :
    fetch (atWord { s0.memWrite 30 0x0C000000 with ivt := [(15, 30)] } 4 0x150F0000) = .ok 0x150F0000 ∧
    decode s0.cfg.opcodeMap 0x150F0000 = .ok (.int 15) ∧
    (∃ t, step (atWord { s0.memWrite 30 0x0C000000 with ivt := [(15, 30)] } 4 0x150F0000) = .next t ∧ fetch t = .ok 0x0C000000) :=
  ⟨by decide, by decide, _, rfl, by decide⟩

theorem witness_StoredCode : (∃ t, exec (.store 0 15) (wOk.setPc 255) = .next t) ∧
    translateAddr (wOk.setPc 255) (regOf wOk 15) .write = .ok 255 ∧ translateAddr (wOk.setPc 255) 255 .execute = .ok 255 :=
  ⟨⟨_, rfl⟩, by decide, by decide⟩

theorem witness_WrongPath : (∃ t, exec (.jumpIfZero 15 15) { wOk with pred := [(0, true)] } = .next t) ∧ regOf wOk 15 ≠ 0 :=
  ⟨⟨_, rfl⟩, by decide⟩

/-- `mapPage` at 256 and 255 (W4), and in FLAT. -/
theorem witness_MapPage : s0.cfg.scheme = .paged ∧ s0.cfg.ptSize ≤ (256 : Word).toNat ∧ (255 : Word).toNat < s0.cfg.ptSize ∧
    flat0.cfg.scheme = .flat := by decide

/-- Two words load into FLAT, and the second of two into an address without Write stops. -/
theorem witness_LoadProgram : loadProgram [5, 6] flat0 = ({ flat0 with mem := [(0, 5), (1, 6)] }, none) ∧
    loadProgram [5, 6] { flat0 with prot := [(1, true)] } = ({ flat0 with prot := [(1, true)], mem := [(0, 5)] }, some .permissionFault) ∧
    translateAddr flat0 0 .write = .ok 0 ∧ translateAddr flat0 1 .write = .ok 1 := by decide

/-- One run for each of the three reasons. -/
theorem witness_RunStops : (∃ t, run 1 (atWord s0 0 0x11000000) = ({ haltReason := .budgetExhausted, instructionsExecuted := 1 }, t)) ∧
    (∃ t, run 1 (s0.setPc 2048) = ({ haltReason := .pcOutOfRange, instructionsExecuted := 0 }, t)) ∧
    (∃ t, run 2 (atWord s0 0 0x11000000) = ({ haltReason := .fault .invalidOpcode, instructionsExecuted := 1 }, t)) :=
  ⟨⟨_, rfl⟩, ⟨_, rfl⟩, ⟨_, rfl⟩⟩

theorem witness_RunAgain : (run 2 (atWord s0 0 0x11000000)).1.haltReason = .fault .invalidOpcode ∧ (1 : Word) ≠ 0 := by decide

theorem witness_RunContinues : (1 : Word).toNat + (0xFFFFFFFE : Word).toNat < 2 ^ 32 ∧
    (run 1 (atWord s0 0 0x11000000)).1.haltReason = .budgetExhausted := by decide

theorem witness_Snapshots : 15 < s0.cfg.numRegs ∧ 2047 < s0.cfg.memSize := by decide

theorem witness_HaltCodes : haltCode .budgetExhausted = some 0x20 ∧ haltCode (.fault .outOfRangeInterrupt) = some 0x0C := by decide

end Sys2Proof.Tests
end

/-! Proofs of the statements of spec section 10, the state. First what serves them all: the fault an instruction raises,
the fields it writes, and how the run loop counts. -/

namespace Sys2Proof.Machine

section
variable {s : State} {f : Fault}

/-! ### The fault an instruction raises -/

/-- A translation raises one of the four faults of R43 and R50. -/
theorem translateAddr_fault_kind {va : Word} {k : AccessKind} (h : translateAddr s va k = .error f) :
    f = .outOfRangeMemory ∨ f = .outOfRangePage ∨ f = .pageFault ∨ f = .permissionFault := by
  unfold translateAddr translatePaged translateFlat at h
  repeat' split at h
  all_goals cases h <;> simp

/-- Two register checks before a computation: their fault, or the computation's when both fields name registers. -/
theorem checkRegs_then_eq_error {α : Type} {o p : Byte} {m : Except Fault α} :
    (checkReg s o >>= fun _ => checkReg s p >>= fun _ => m) = .error f ↔
      ((s.cfg.numRegs ≤ o.toNat ∨ s.cfg.numRegs ≤ p.toNat) ∧ f = .invalidRegister) ∨
      ((o.toNat < s.cfg.numRegs ∧ p.toNat < s.cfg.numRegs) ∧ m = .error f) := by
  simp only [bind_eq_error, checkReg_eq_error, checkReg_eq_ok, exists_const, ← Nat.not_lt]
  tauto

/-- An ALU instruction raises no other fault than that of its register checks (R76). -/
theorem aluOp_eq_error {g : Word → Word → Word} {o1 o2 : Byte} :
    aluOp g o1 o2 s = .error f ↔
      (s.cfg.numRegs ≤ o1.toNat ∨ s.cfg.numRegs ≤ o2.toNat) ∧ f = .invalidRegister := by
  rw [aluOp, checkRegs_then_eq_error]
  simp

theorem speculate_eq_error {o : Byte} : speculate s o = .error f ↔
    s.predTaken (predSlot s) = true ∧ translateAddr s (regOf s o) .execute = .error f := by
  unfold speculate
  split <;> simp_all [redirect_eq_error]

theorem speculate_eq_ok {o : Byte} {u : State} : speculate s o = .ok u ↔
    (s.predTaken (predSlot s) = true ∧
      ∃ pa, translateAddr s (regOf s o) .execute = .ok pa ∧ u = s.setPc (targetWord pa)) ∨
    (s.predTaken (predSlot s) = false ∧ u = s) := by
  unfold speculate
  split <;> simp_all [redirect_eq_ok, @eq_comm _ u]

theorem branchIfZero_eq_error {o1 o2 : Byte} {slot : Nat} : branchIfZero s o1 o2 slot = .error f ↔
    regOf s o1 = 0 ∧ translateAddr s (regOf s o2) .execute = .error f := by
  unfold branchIfZero isZero
  split <;> simp_all [redirect_eq_error]

/-- The two parts of R84 fault exactly when one of them redirects and the target does not translate: the speculative
redirect writes `pc` only, which the second translation does not read. -/
theorem speculate_then_branchIfZero_eq_error {o1 o2 : Byte} {slot : Nat} :
    (speculate s o2 >>= fun u => branchIfZero u o1 o2 slot) = .error f ↔
      (s.predTaken (predSlot s) = true ∨ regOf s o1 = 0) ∧ translateAddr s (regOf s o2) .execute = .error f := by
  simp only [bind_eq_error, speculate_eq_error, branchIfZero_eq_error]
  constructor
  · rintro (⟨htaken, hfault⟩ | ⟨u, hu, hzero, hfault⟩)
    · exact ⟨.inl htaken, hfault⟩
    · obtain ⟨htaken, pa, -, rfl⟩ | ⟨-, rfl⟩ := speculate_eq_ok.mp hu
      · exact ⟨.inl htaken, hfault⟩
      · exact ⟨.inr hzero, hfault⟩
  · rintro ⟨hredirect, hfault⟩
    cases htaken : s.predTaken (predSlot s) with
    | true => exact .inl ⟨rfl, hfault⟩
    | false =>
      exact .inr ⟨s, speculate_eq_ok.mpr (.inr ⟨htaken, rfl⟩), by simpa [htaken] using hredirect, hfault⟩

/-- A register field of the instruction names no register (R17). -/
def BadRegister (i : Instr) (s : State) : Prop := ∃ o ∈ registerFields i, s.cfg.numRegs ≤ o.toNat

/-- What an instruction raises once all its register fields name registers. -/
def LaterFault : Instr → State → Fault → Prop
  | .load _ o2, s, f => translateAddr s (regOf s o2) .read = .error f
  | .store _ o2, s, f => translateAddr s (regOf s o2) .write = .error f
  | .add _ _, _, _ => False
  | .sub _ _, _, _ => False
  | .mul _ _, _, _ => False
  | .div _ o2, s, f => regOf s o2 = 0 ∧ f = .divisionByZero
  | .jump o1, s, f => translateAddr s (regOf s o1) .execute = .error f
  | .jumpIfZero o1 o2, s, f =>
    (s.predTaken (predSlot s) = true ∨ regOf s o1 = 0) ∧ translateAddr s (regOf s o2) .execute = .error f
  | .push _, s, f => s.cfg.stackDepth ≤ s.os.length ∧ f = .stackOverflow
  | .pop _, s, f => s.os = [] ∧ f = .stackUnderflow
  | .call o1, s, f => (s.cfg.stackDepth ≤ s.os.length ∧ f = .stackOverflow) ∨
    (s.os.length < s.cfg.stackDepth ∧ translateAddr s (regOf s o1) .execute = .error f)
  | .ret, s, f => s.os = [] ∧ f = .stackUnderflow
  | .sysReg _, _, _ => False
  | .sysMem o2, s, f => translateAddr s (o2.setWidth 32) .read = .error f
  | .cacheRead o1 o2, s, f => (s.cfg.cacheSlots ≤ o1.toNat ∧ f = .outOfRangeMemory) ∨
    (o1.toNat < s.cfg.cacheSlots ∧ translateAddr s (regOf s o2) .read = .error f)
  | .cacheWrite o1 o2, s, f => (s.cfg.cacheSlots ≤ o1.toNat ∧ f = .outOfRangeMemory) ∨
    (o1.toNat < s.cfg.cacheSlots ∧ translateAddr s (regOf s o2) .write = .error f)
  | .privileged, s, f => s.mode = .user ∧ f = .privilegeFault
  | .enterPrivileged, _, _ => False
  | .exitPrivileged, _, _ => False
  | .inPort _ o2, s, f => s.cfg.numPorts ≤ o2.toNat ∧ f = .outOfRangePort
  | .outPort _ o2, s, f => s.cfg.numPorts ≤ o2.toNat ∧ f = .outOfRangePort
  | .int o1, s, f => (s.cfg.ivtSize ≤ o1.toNat ∧ f = .outOfRangeInterrupt) ∨
    (o1.toNat < s.cfg.ivtSize ∧ s.cfg.stackDepth ≤ s.os.length ∧ f = .stackOverflow)

/-- The one fault inversion for every instruction: its register checks come first (R17, R111). -/
theorem exec_eq_fault {i : Instr} : exec i s = .fault f ↔
    (BadRegister i s ∧ f = .invalidRegister) ∨ (¬ BadRegister i s ∧ LaterFault i s f) := by
  unfold BadRegister
  cases i with
  | load => simp [exec, execLoad, checkRegs_then_eq_error, indirectAddress, registerFields, LaterFault]
  | store => simp [exec, execStore, checkRegs_then_eq_error, indirectAddress, registerFields, LaterFault]
  | add => simp [exec, execAdd, aluOp_eq_error, registerFields, LaterFault]
  | sub => simp [exec, execSub, aluOp_eq_error, registerFields, LaterFault]
  | mul => simp [exec, execMul, aluOp_eq_error, registerFields, LaterFault]
  | div => simp [exec, execDiv, checkRegs_then_eq_error, registerFields, LaterFault]
  | jump => simp [exec, execJump, bind_eq_error, indirectAddress, registerFields, LaterFault]
  | jumpIfZero =>
    simp [exec, execJumpIfZero, checkRegs_then_eq_error, speculate_then_branchIfZero_eq_error, registerFields,
      LaterFault]
  | push => simp [exec, execPush, bind_eq_error, registerFields, LaterFault]
  | pop => simp [exec, execPop, bind_eq_error, registerFields, LaterFault]
  | call =>
    by_cases hroom : s.os.length < s.cfg.stackDepth
    · simp [exec, execCall, bind_eq_error, indirectAddress, registerFields, LaterFault, Nat.not_le.mpr hroom, hroom]
    · simp [exec, execCall, bind_eq_error, indirectAddress, registerFields, LaterFault, Nat.not_lt.mp hroom, hroom]
  | ret => simp [exec, execRet, registerFields, LaterFault]
  | sysReg => simp [exec, execSysReg, registerFields, LaterFault]
  | sysMem => simp [exec, execSysMem, immediateAddress, registerFields, LaterFault]
  | cacheRead => simp [exec, execCacheRead, bind_eq_error, indirectAddress, registerFields, LaterFault]
  | cacheWrite => simp [exec, execCacheWrite, bind_eq_error, indirectAddress, registerFields, LaterFault]
  | privileged => simp [exec, execPrivileged, registerFields, LaterFault]
  | enterPrivileged => simp [exec, execEnterPrivileged, registerFields, LaterFault]
  | exitPrivileged => simp [exec, execExitPrivileged, registerFields, LaterFault]
  | inPort => simp [exec, execIn, bind_eq_error, registerFields, LaterFault]
  | outPort => simp [exec, execOut, bind_eq_error, registerFields, LaterFault]
  | int => simp [exec, execInt, registerFields, LaterFault]

/-- No check after the register checks raises InvalidRegister. -/
theorem not_laterFault_invalidRegister (i : Instr) : ¬ LaterFault i s .invalidRegister := by
  have ht : ∀ va k, translateAddr s va k ≠ .error .invalidRegister :=
    fun va k h => by simpa using translateAddr_fault_kind h
  cases i <;> simp [LaterFault, ht]

/-! ### Well-formed instructions -/

/-- The field that names a cache slot, a port or a vector is in range (R97, R103 to R105). -/
def UnitFieldOk (cfg : Config) : Instr → Prop
  | .cacheRead o1 _ => o1.toNat < cfg.cacheSlots
  | .cacheWrite o1 _ => o1.toNat < cfg.cacheSlots
  | .inPort _ o2 => o2.toNat < cfg.numPorts
  | .outPort _ o2 => o2.toNat < cfg.numPorts
  | .int o1 => o1.toNat < cfg.ivtSize
  | _ => True

/-- An instruction is well formed when its register fields and its other field are in range. -/
theorem wellFormed_iff (i : Instr) (s : State) :
    i.wellFormed s.cfg = true ↔ ¬ BadRegister i s ∧ UnitFieldOk s.cfg i := by
  unfold BadRegister
  cases i <;>
    simp [Instr.wellFormed, Config.regOk, Config.slotOk, Config.portOk, Config.vectorOk, registerFields, UnitFieldOk]

/-- A slot, port or vector number out of range raises its own fault. -/
theorem laterFault_of_not_unitFieldOk {i : Instr} (h : ¬ UnitFieldOk s.cfg i) :
    LaterFault i s .outOfRangeMemory ∨ LaterFault i s .outOfRangePort ∨ LaterFault i s .outOfRangeInterrupt := by
  unfold UnitFieldOk at h
  split at h <;> simp_all [LaterFault]

/-- With its slot, port or vector number in range an instruction raises neither fault of such a field. -/
theorem not_laterFault_of_unitFieldOk {i : Instr} (h : UnitFieldOk s.cfg i) :
    ¬ LaterFault i s .outOfRangePort ∧ ¬ LaterFault i s .outOfRangeInterrupt := by
  have hport : ∀ va k, translateAddr s va k ≠ .error .outOfRangePort :=
    fun va k h => by simpa using translateAddr_fault_kind h
  have hvector : ∀ va k, translateAddr s va k ≠ .error .outOfRangeInterrupt :=
    fun va k h => by simpa using translateAddr_fault_kind h
  cases i <;> simp_all [LaterFault, UnitFieldOk]

end

/-- Settles O32: the register checks come first, and no later check raises their fault. -/
theorem invalidRegisterExactlyOutOfRangeField : Obligations.InvalidRegisterExactlyOutOfRangeField := by
  intro i s
  rw [exec_eq_fault]
  simp [not_laterFault_invalidRegister, BadRegister]

/-- Settles O33: a bad register field raises InvalidRegister, a bad field of another kind its own fault, and a
well-formed instruction has neither. -/
theorem illFormedInstructionsFault : Obligations.IllFormedInstructionsFault := by
  intro i s
  constructor
  · intro hill
    by_cases hreg : BadRegister i s
    · exact .inl (exec_eq_fault.mpr (.inl ⟨hreg, rfl⟩))
    · have hunit : ¬ UnitFieldOk s.cfg i := fun hu => by simp [(wellFormed_iff i s).mpr ⟨hreg, hu⟩] at hill
      simpa [exec_eq_fault, hreg, not_laterFault_invalidRegister] using laterFault_of_not_unitFieldOk hunit
  · intro hwf
    obtain ⟨hreg, hunit⟩ := (wellFormed_iff i s).mp hwf
    obtain ⟨hport, hvector⟩ := not_laterFault_of_unitFieldOk hunit
    simp [exec_eq_fault, hreg, hport, hvector, not_laterFault_invalidRegister]

/-! ### The fields an instruction writes (R37) -/

/-- Every field outside `ws` has the same value in both states. -/
def Writes (ws : List StateField) (s t : State) : Prop := ∀ fld, fld ∉ ws → fld.same s t

section
variable {s t u : State} {ws vs : List StateField}

theorem StateField.same_trans (fld : StateField) (h : fld.same s t) (h' : fld.same t u) : fld.same s u := by
  cases fld <;> exact Eq.trans h' h

theorem Writes.mono (h : Writes ws s t) (hsub : ws ⊆ vs) : Writes vs s t :=
  fun fld hfld => h fld (fun hmem => hfld (hsub hmem))

theorem Writes.trans (h : Writes ws s t) (h' : Writes ws t u) : Writes ws s u :=
  fun fld hfld => fld.same_trans (h fld hfld) (h' fld hfld)

variable (s) (k : Nat) (v : Word)

theorem writes_refl (ws : List StateField) : Writes ws s s := fun fld _ => by cases fld <;> rfl

theorem setReg_writes : Writes [.x] s (s.setReg k v) :=
  fun fld h => by cases fld <;> simp [StateField.same] at h ⊢
theorem setPc_writes : Writes [.pc] s (s.setPc v) :=
  fun fld h => by cases fld <;> simp [StateField.same] at h ⊢
theorem setMode_writes (m : Mode) : Writes [.mode] s (s.setMode m) :=
  fun fld h => by cases fld <;> simp [StateField.same] at h ⊢
theorem countStep_writes : Writes [.icount] s s.countStep :=
  fun fld h => by cases fld <;> simp [StateField.same] at h ⊢
theorem memWrite_writes : Writes [.mem] s (s.memWrite k v) :=
  fun fld h => by cases fld <;> simp [StateField.same] at h ⊢
theorem appendOS_writes : Writes [.os] s (s.appendOS v) :=
  fun fld h => by cases fld <;> simp [StateField.same] at h ⊢
theorem dropOS_writes : Writes [.os] s s.dropOS :=
  fun fld h => by cases fld <;> simp [StateField.same] at h ⊢
theorem pushRAS_writes : Writes [.ras] s (s.pushRAS v) :=
  fun fld h => by cases fld <;> simp [StateField.same] at h ⊢
theorem dropRAS_writes : Writes [.ras] s s.dropRAS :=
  fun fld h => by cases fld <;> simp [StateField.same] at h ⊢
theorem clearPred_writes : Writes [.pred] s (s.clearPred k) :=
  fun fld h => by cases fld <;> simp [StateField.same] at h ⊢
theorem recordBranch_writes : Writes [.btb] s s.recordBranch :=
  fun fld h => by cases fld <;> simp [StateField.same] at h ⊢
theorem setCache_writes : Writes [.cache] s (s.setCache k v) :=
  fun fld h => by cases fld <;> simp [StateField.same] at h ⊢
theorem setPort_writes : Writes [.ports] s (s.setPort k v) :=
  fun fld h => by cases fld <;> simp [StateField.same] at h ⊢
theorem emit_writes : Writes [.sysout] s (s.emit v) :=
  fun fld h => by cases fld <;> simp [StateField.same] at h ⊢

end

/-- An instruction writes its fields of the access matrix only (R37): each write of a next state is one of the
matrix's entries. -/
theorem exec_writes {i : Instr} {s t : State} (h : exec i s = .next t) : Writes (mayWrite i) s t := by
  cases i with
  | load o1 o2 =>
    obtain ⟨-, -, pa, -, rfl⟩ := exec_load_eq_next.mp h
    exact setReg_writes _ _ _
  | store o1 o2 =>
    obtain ⟨-, -, pa, -, rfl⟩ := exec_store_eq_next.mp h
    exact memWrite_writes _ _ _
  | add o1 o2 =>
    obtain ⟨-, -, rfl⟩ := exec_add_eq_next.mp h
    exact setReg_writes _ _ _
  | sub o1 o2 =>
    obtain ⟨-, -, rfl⟩ := exec_sub_eq_next.mp h
    exact setReg_writes _ _ _
  | mul o1 o2 =>
    obtain ⟨-, -, rfl⟩ := exec_mul_eq_next.mp h
    exact setReg_writes _ _ _
  | div o1 o2 =>
    obtain ⟨-, -, -, rfl⟩ := exec_div_eq_next.mp h
    exact setReg_writes _ _ _
  | jump o1 =>
    obtain ⟨-, pa, -, rfl⟩ := exec_jump_eq_next.mp h
    exact ((recordBranch_writes s).mono (by simp [mayWrite])).trans ((setPc_writes _ _).mono (by simp [mayWrite]))
  | jumpIfZero o1 o2 =>
    obtain ⟨-, -, u, hu, ht⟩ := exec_jumpIfZero_eq_next.mp h
    have hsu : Writes [.pc, .pred] s u := by
      split at hu
      · obtain ⟨pa, -, rfl⟩ := hu
        exact (setPc_writes _ _).mono (by simp)
      · rw [hu]
        exact writes_refl s _
    have hut : Writes [.pc, .pred] u t := by
      split at ht
      · rw [ht]
        exact writes_refl u _
      · rw [ht]
        exact (clearPred_writes u _).mono (by simp)
    exact hsu.trans hut
  | push o1 =>
    obtain ⟨-, -, rfl⟩ := exec_push_eq_next.mp h
    exact appendOS_writes _ _
  | pop o1 =>
    obtain ⟨-, v, -, rfl⟩ := exec_pop_eq_next.mp h
    exact ((dropOS_writes s).mono (by simp [mayWrite])).trans ((setReg_writes _ _ _).mono (by simp [mayWrite]))
  | call o1 =>
    obtain ⟨-, -, pa, -, rfl⟩ := exec_call_eq_next.mp h
    have hstacks : Writes [.pc, .os, .ras] s ((s.appendOS s.pc).pushRAS s.pc) :=
      ((appendOS_writes s _).mono (by simp)).trans ((pushRAS_writes _ _).mono (by simp))
    exact hstacks.trans ((setPc_writes _ _).mono (by simp))
  | ret =>
    obtain ⟨v, -, rfl⟩ := exec_ret_eq_next.mp h
    have hstacks : Writes [.pc, .os, .ras] s s.dropOS.dropRAS :=
      ((dropOS_writes s).mono (by simp)).trans ((dropRAS_writes _).mono (by simp))
    exact hstacks.trans ((setPc_writes _ _).mono (by simp))
  | sysReg o2 =>
    obtain ⟨-, rfl⟩ := exec_sysReg_eq_next.mp h
    exact emit_writes _ _
  | sysMem o2 =>
    obtain ⟨pa, -, rfl⟩ := exec_sysMem_eq_next.mp h
    exact emit_writes _ _
  | cacheRead o1 o2 =>
    obtain ⟨-, -, pa, -, rfl⟩ := exec_cacheRead_eq_next.mp h
    exact setCache_writes _ _ _
  | cacheWrite o1 o2 =>
    obtain ⟨-, -, pa, -, rfl⟩ := exec_cacheWrite_eq_next.mp h
    exact memWrite_writes _ _ _
  | privileged =>
    obtain ⟨-, rfl⟩ := exec_privileged_eq_next.mp h
    exact writes_refl _ _
  | enterPrivileged =>
    obtain rfl := exec_enterPrivileged_eq_next.mp h
    exact setMode_writes _ _
  | exitPrivileged =>
    obtain rfl := exec_exitPrivileged_eq_next.mp h
    exact setMode_writes _ _
  | inPort o1 o2 =>
    obtain ⟨-, -, rfl⟩ := exec_inPort_eq_next.mp h
    exact setReg_writes _ _ _
  | outPort o1 o2 =>
    obtain ⟨-, -, rfl⟩ := exec_outPort_eq_next.mp h
    exact setPort_writes _ _ _
  | int o1 =>
    obtain ⟨-, -, rfl⟩ := exec_int_eq_next.mp h
    have hentry : Writes [.pc, .mode, .os] s ((s.appendOS s.pc).setPc (s.vector o1.toNat)) :=
      ((appendOS_writes s _).mono (by simp)).trans ((setPc_writes _ _).mono (by simp))
    exact hentry.trans ((setMode_writes _ _).mono (by simp))

/-- Settles O34, by the inversion of each instruction's next state. -/
theorem onlyMatrixFieldsAreWritten : Obligations.OnlyMatrixFieldsAreWritten :=
  fun _ _ _ h => exec_writes h

/-- A step writes `pc` and ICOUNT (R68, R115) besides the fields of its instruction. -/
theorem step_writes {s t : State} (h : step s = .next t) : ∃ i, Writes (.pc :: .icount :: mayWrite i) s t := by
  obtain ⟨w, i, u, -, -, hexec, rfl⟩ := step_eq_next.mp h
  have hadvance : Writes (.pc :: .icount :: mayWrite i) s (s.setPc (s.pc + 1)) := (setPc_writes _ _).mono (by simp)
  have hexecute : Writes (.pc :: .icount :: mayWrite i) (s.setPc (s.pc + 1)) u := (exec_writes hexec).mono (by simp)
  exact ⟨i, (hadvance.trans hexecute).trans ((countStep_writes u).mono (by simp))⟩

/-- Settles O35: the four fields have no W entry in any column of the access matrix. -/
theorem stepsKeepHostOwnedState : Obligations.StepsKeepHostOwnedState := by
  intro s t h
  obtain ⟨i, hwrites⟩ := step_writes h
  have hunwritten : ∀ fld ∈ [StateField.cfg, .pt, .ivt, .prot], fld ∉ .pc :: .icount :: mayWrite i := by
    cases i <;> simp [mayWrite]
  exact ⟨hwrites .cfg (hunwritten _ (by simp)), hwrites .pt (hunwritten _ (by simp)),
    hwrites .ivt (hunwritten _ (by simp)), hwrites .prot (hunwritten _ (by simp))⟩

/-- Settles O36: three instructions set the mode, and the access matrix has no other W entry for it. -/
theorem modeChangesOnlyByItsInstructions : Obligations.ModeChangesOnlyByItsInstructions := by
  intro i s t h
  split
  · rw [exec_enterPrivileged_eq_next.mp h, State.setMode_mode]
  · obtain ⟨-, -, rfl⟩ := exec_int_eq_next.mp h
    rfl
  · rw [exec_exitPrivileged_eq_next.mp h, State.setMode_mode]
  · have hmode : StateField.mode ∉ mayWrite i := by cases i <;> simp_all [mayWrite]
    exact exec_writes h .mode hmode

/-! ### Nothing is refused (R64) -/

/-- Every meaning settles a computation that answers a state or a fault, so no instruction is refused (R64). -/
theorem exec_ne_refused (i : Instr) (s : State) (r : Refusal) : exec i s ≠ .refused r := by
  cases i with
  | enterPrivileged => simp [exec, execEnterPrivileged]
  | exitPrivileged => simp [exec, execExitPrivileged]
  | _ => exact settle_ne_refused

theorem retire_eq_refused {o : Host.Outcome State Fault Refusal} {r : Refusal} :
    retire o = .refused r ↔ o = .refused r := by
  cases o <;> simp [retire]

/-- No step is refused (R64). -/
theorem step_ne_refused (s : State) (r : Refusal) : step s ≠ .refused r := by
  unfold step
  cases fetch s with
  | error f => simp
  | ok w =>
    simp only [executeWord]
    cases decode s.cfg.opcodeMap w with
    | error e => simp
    | ok i => exact mt retire_eq_refused.mp (exec_ne_refused i _ r)

/-! ### The run loop (R113) -/

/-- Counted from `n + m` steps, the loop does as from `m`, and reports `n` more. -/
theorem runLoop_add (left n m : Nat) (s : State) :
    runLoop left (n + m) s =
      ({ haltReason := (runLoop left m s).1.haltReason,
         instructionsExecuted := BitVec.ofNat 32 n + (runLoop left m s).1.instructionsExecuted },
       (runLoop left m s).2) := by
  fun_induction runLoop left m s with
  | case1 m s => rw [runLoop_budget, BitVec.ofNat_add]
  | case2 left m s hpc => rw [runLoop_pcOutOfRange _ _ hpc, BitVec.ofNat_add]
  | case3 left m s hpc t hstep ih => rw [runLoop_next _ _ (Nat.not_le.mp hpc) hstep]; exact ih
  | case4 left m s hpc f hstep => rw [runLoop_fault _ _ (Nat.not_le.mp hpc) hstep, BitVec.ofNat_add]
  | case5 left m s hpc r hstep => exact absurd hstep (step_ne_refused s r)

/-- A completed step adds 1 to ICOUNT (R115): no instruction writes it. -/
theorem step_icount {s t : State} (h : step s = .next t) : t.icount = s.icount + 1 := by
  obtain ⟨w, i, u, -, -, hexec, rfl⟩ := step_eq_next.mp h
  have hexecute : u.icount = s.icount := exec_writes hexec .icount (by cases i <;> simp [mayWrite])
  rw [State.countStep_icount, hexecute]

/-- The loop adds to ICOUNT what it adds to the count of completed steps, as long as that count is a word. -/
theorem runLoop_icount (left n : Nat) (s : State) (h : n + left < 2 ^ 32) :
    (runLoop left n s).2.icount + n = s.icount + (runLoop left n s).1.instructionsExecuted.toNat := by
  fun_induction runLoop left n s with
  | case3 left n s hpc t hstep ih =>
    have hcount : t.icount = s.icount + 1 := step_icount hstep
    have hrest := ih (by omega)
    omega
  | _ =>
    simp only [BitVec.toNat_ofNat]
    omega

/-- Settles O38: no instruction writes ICOUNT, and a budget is a word, so the reported count does not wrap. -/
theorem icountCountsCompletedSteps : Obligations.IcountCountsCompletedSteps :=
  ⟨fun _ _ h => step_icount h, fun max s => runLoop_icount max.toNat 0 s (by simpa using max.isLt)⟩

/-- When a budget of `a` is exhausted, a budget of `a + b` goes on from there with `b` of it left. -/
theorem runLoop_of_budgetExhausted (a b n : Nat) (s : State)
    (h : (runLoop a n s).1.haltReason = .budgetExhausted) :
    runLoop (a + b) n s = runLoop b (n + a) (runLoop a n s).2 := by
  fun_induction runLoop a n s with
  | case1 n s => simp
  | case3 left n s hpc t hstep ih =>
    rw [Nat.succ_add, runLoop_next _ _ (Nat.not_le.mp hpc) hstep, ih h, Nat.add_assoc, Nat.add_comm 1 left]
  | _ => simp at h

/-- Settles O55: the second run goes on where the first stopped, and counts from 0 instead of `a`. -/
theorem runContinuesAfterBudget : Obligations.RunContinuesAfterBudget := by
  intro a b s hsum h
  have hbudget : (a + b).toNat = a.toNat + b.toNat := BitVec.toNat_add_of_lt hsum
  have hrun : run (a + b) s = runLoop b.toNat (a.toNat + 0) (run a s).2 := by
    rw [run, hbudget, runLoop_of_budgetExhausted _ _ _ _ h, Nat.zero_add, Nat.add_zero, run]
  rw [hrun, runLoop_add, BitVec.ofNat_toNat, BitVec.setWidth_eq]
  exact ⟨rfl, rfl, rfl⟩

/-! ### Hidden state (R35) -/

section
variable {s t : State} {f : Fault}

/-- No check looks at hidden state. -/
theorem exec_eraseHidden_eq_fault {i : Instr} : exec i (eraseHidden s) = .fault f ↔ exec i s = .fault f := by
  have hregs : BadRegister i (eraseHidden s) ↔ BadRegister i s := Iff.rfl
  have hlater : LaterFault i (eraseHidden s) f ↔ LaterFault i s f := by cases i <;> exact Iff.rfl
  rw [exec_eq_fault, exec_eq_fault, hregs, hlater]

/-- No value that an instruction writes outside hidden state comes from hidden state. -/
theorem exec_eraseHidden_of_next {i : Instr} (h : exec i s = .next t) :
    ∃ u, exec i (eraseHidden s) = .next u ∧ eraseHidden u = eraseHidden t := by
  cases i with
  | load o1 o2 =>
    obtain ⟨h1, h2, pa, hpa, rfl⟩ := exec_load_eq_next.mp h
    exact ⟨_, exec_load_eq_next.mpr ⟨h1, h2, pa, hpa, rfl⟩, rfl⟩
  | store o1 o2 =>
    obtain ⟨h1, h2, pa, hpa, rfl⟩ := exec_store_eq_next.mp h
    exact ⟨_, exec_store_eq_next.mpr ⟨h1, h2, pa, hpa, rfl⟩, rfl⟩
  | add o1 o2 =>
    obtain ⟨h1, h2, rfl⟩ := exec_add_eq_next.mp h
    exact ⟨_, exec_add_eq_next.mpr ⟨h1, h2, rfl⟩, rfl⟩
  | sub o1 o2 =>
    obtain ⟨h1, h2, rfl⟩ := exec_sub_eq_next.mp h
    exact ⟨_, exec_sub_eq_next.mpr ⟨h1, h2, rfl⟩, rfl⟩
  | mul o1 o2 =>
    obtain ⟨h1, h2, rfl⟩ := exec_mul_eq_next.mp h
    exact ⟨_, exec_mul_eq_next.mpr ⟨h1, h2, rfl⟩, rfl⟩
  | div o1 o2 =>
    obtain ⟨h1, h2, hdivisor, rfl⟩ := exec_div_eq_next.mp h
    exact ⟨_, exec_div_eq_next.mpr ⟨h1, h2, hdivisor, rfl⟩, rfl⟩
  | jump o1 =>
    obtain ⟨h1, pa, hpa, rfl⟩ := exec_jump_eq_next.mp h
    exact ⟨_, exec_jump_eq_next.mpr ⟨h1, pa, hpa, rfl⟩, rfl⟩
  | jumpIfZero o1 o2 =>
    obtain ⟨h1, h2, u, hu, ht⟩ := exec_jumpIfZero_eq_next.mp h
    refine ⟨eraseHidden t, exec_jumpIfZero_eq_next.mpr ⟨h1, h2, eraseHidden u, ?_, ?_⟩, rfl⟩
    · by_cases hredirect : s.predTaken (predSlot s) = true ∨ regOf s o1 = 0
      · obtain ⟨pa, hpa, rfl⟩ := (if_pos hredirect).mp hu
        exact (if_pos hredirect).mpr ⟨pa, hpa, rfl⟩
      · obtain rfl := (if_neg hredirect).mp hu
        exact (if_neg hredirect).mpr rfl
    · by_cases hzero : regOf s o1 = 0
      · obtain rfl := ht.trans (if_pos hzero)
        exact (if_pos hzero).symm
      · obtain rfl := ht.trans (if_neg hzero)
        exact (if_neg hzero).symm
  | push o1 =>
    obtain ⟨h1, hroom, rfl⟩ := exec_push_eq_next.mp h
    exact ⟨_, exec_push_eq_next.mpr ⟨h1, hroom, rfl⟩, rfl⟩
  | pop o1 =>
    obtain ⟨h1, v, htop, rfl⟩ := exec_pop_eq_next.mp h
    exact ⟨_, exec_pop_eq_next.mpr ⟨h1, v, htop, rfl⟩, rfl⟩
  | call o1 =>
    obtain ⟨h1, hroom, pa, hpa, rfl⟩ := exec_call_eq_next.mp h
    exact ⟨_, exec_call_eq_next.mpr ⟨h1, hroom, pa, hpa, rfl⟩, rfl⟩
  | ret =>
    obtain ⟨v, htop, rfl⟩ := exec_ret_eq_next.mp h
    exact ⟨_, exec_ret_eq_next.mpr ⟨v, htop, rfl⟩, rfl⟩
  | sysReg o2 =>
    obtain ⟨h2, rfl⟩ := exec_sysReg_eq_next.mp h
    exact ⟨_, exec_sysReg_eq_next.mpr ⟨h2, rfl⟩, rfl⟩
  | sysMem o2 =>
    obtain ⟨pa, hpa, rfl⟩ := exec_sysMem_eq_next.mp h
    exact ⟨_, exec_sysMem_eq_next.mpr ⟨pa, hpa, rfl⟩, rfl⟩
  | cacheRead o1 o2 =>
    obtain ⟨h2, hslot, pa, hpa, rfl⟩ := exec_cacheRead_eq_next.mp h
    exact ⟨_, exec_cacheRead_eq_next.mpr ⟨h2, hslot, pa, hpa, rfl⟩, rfl⟩
  | cacheWrite o1 o2 =>
    obtain ⟨h2, hslot, pa, hpa, rfl⟩ := exec_cacheWrite_eq_next.mp h
    exact ⟨_, exec_cacheWrite_eq_next.mpr ⟨h2, hslot, pa, hpa, rfl⟩, rfl⟩
  | privileged =>
    obtain ⟨hmode, rfl⟩ := exec_privileged_eq_next.mp h
    exact ⟨_, exec_privileged_eq_next.mpr ⟨hmode, rfl⟩, rfl⟩
  | enterPrivileged =>
    obtain rfl := exec_enterPrivileged_eq_next.mp h
    exact ⟨_, exec_enterPrivileged_eq_next.mpr rfl, rfl⟩
  | exitPrivileged =>
    obtain rfl := exec_exitPrivileged_eq_next.mp h
    exact ⟨_, exec_exitPrivileged_eq_next.mpr rfl, rfl⟩
  | inPort o1 o2 =>
    obtain ⟨h1, hport, rfl⟩ := exec_inPort_eq_next.mp h
    exact ⟨_, exec_inPort_eq_next.mpr ⟨h1, hport, rfl⟩, rfl⟩
  | outPort o1 o2 =>
    obtain ⟨h1, hport, rfl⟩ := exec_outPort_eq_next.mp h
    exact ⟨_, exec_outPort_eq_next.mpr ⟨h1, hport, rfl⟩, rfl⟩
  | int o1 =>
    obtain ⟨hvector, hroom, rfl⟩ := exec_int_eq_next.mp h
    exact ⟨_, exec_int_eq_next.mpr ⟨hvector, hroom, rfl⟩, rfl⟩

/-- An instruction does the same whatever stands in hidden state, hidden state itself aside. -/
theorem exec_eraseHidden (i : Instr) (s : State) :
    seenThrough eraseHidden (exec i (eraseHidden s)) = seenThrough eraseHidden (exec i s) := by
  cases h : exec i s with
  | next t =>
    obtain ⟨u, hu, hview⟩ := exec_eraseHidden_of_next h
    rw [hu, seenThrough, seenThrough, hview]
  | fault f => rw [exec_eraseHidden_eq_fault.mpr h]
  | refused r => exact absurd h (exec_ne_refused i s r)

/-- Counting the step is not seen. -/
theorem seenThrough_eraseHidden_retire (o : Host.Outcome State Fault Refusal) :
    seenThrough eraseHidden (retire o) = seenThrough eraseHidden o := by
  cases o <;> rfl

/-- A step does the same whatever stands in hidden state, hidden state itself aside. -/
theorem step_eraseHidden (s : State) :
    seenThrough eraseHidden (step (eraseHidden s)) = seenThrough eraseHidden (step s) := by
  have hfetch : fetch (eraseHidden s) = fetch s := rfl
  have hcfg : (eraseHidden s).cfg = s.cfg := rfl
  have hadvance : advance (eraseHidden s) = eraseHidden (advance s) := rfl
  unfold step
  rw [hfetch]
  cases fetch s with
  | error f => rfl
  | ok w =>
    simp only [executeWord, hcfg]
    cases decode s.cfg.opcodeMap w with
    | error e => rfl
    | ok i => simp only [seenThrough_eraseHidden_retire, hadvance, exec_eraseHidden]

theorem seenThrough_eq_next {view : State → State} {o : Host.Outcome State Fault Refusal} :
    seenThrough view o = .next t ↔ ∃ u, o = .next u ∧ view u = t := by
  cases o <;> simp [seenThrough]

theorem seenThrough_eq_fault {view : State → State} {o : Host.Outcome State Fault Refusal} :
    seenThrough view o = .fault f ↔ o = .fault f := by
  cases o <;> simp [seenThrough]

/-- Steps from states that differ in hidden state only have outcomes that differ there only. -/
theorem step_eraseHidden_congr (h : eraseHidden s = eraseHidden t) :
    seenThrough eraseHidden (step t) = seenThrough eraseHidden (step s) := by
  rw [← step_eraseHidden t, ← h, step_eraseHidden]

/-- The range check of the run loop does not look at hidden state. -/
theorem pcOutOfRange_congr (h : eraseHidden s = eraseHidden t) :
    s.cfg.memSize ≤ s.pc.toNat ↔ t.cfg.memSize ≤ t.pc.toNat := by
  have hcfg : s.cfg = t.cfg := show (eraseHidden s).cfg = (eraseHidden t).cfg by rw [h]
  have hpc : s.pc = t.pc := show (eraseHidden s).pc = (eraseHidden t).pc by rw [h]
  rw [hcfg, hpc]

/-- The run loop reports the same whatever stands in hidden state, and leaves the same, hidden state itself aside. -/
theorem runLoop_eraseHidden_congr (left n : Nat) (s t : State) (h : eraseHidden s = eraseHidden t) :
    (runLoop left n s).1 = (runLoop left n t).1 ∧
      eraseHidden (runLoop left n s).2 = eraseHidden (runLoop left n t).2 := by
  fun_induction runLoop left n s generalizing t with
  | case1 n s => exact ⟨rfl, h⟩
  | case2 left n s hs =>
    rw [runLoop_pcOutOfRange _ _ ((pcOutOfRange_congr h).mp hs)]
    exact ⟨rfl, h⟩
  | case3 left n s hs s' hnext ih =>
    obtain ⟨t', ht', hview⟩ := seenThrough_eq_next.mp ((step_eraseHidden_congr h).trans (by rw [hnext]; rfl))
    rw [runLoop_next _ _ (Nat.not_le.mp (mt (pcOutOfRange_congr h).mpr hs)) ht']
    exact ih _ hview.symm
  | case4 left n s hs f hfault =>
    have ht : step t = .fault f := seenThrough_eq_fault.mp ((step_eraseHidden_congr h).trans (by rw [hfault]; rfl))
    rw [runLoop_fault _ _ (Nat.not_le.mp (mt (pcOutOfRange_congr h).mpr hs)) ht]
    exact ⟨rfl, h⟩
  | case5 left n s hs r hrefused => exact absurd hrefused (step_ne_refused s r)

end

/-- Settles O41, by the simulation of one run loop by the other. -/
theorem hiddenStateIsUnobservable : Obligations.HiddenStateIsUnobservable :=
  fun max s t h => runLoop_eraseHidden_congr max.toNat 0 s t h

/-! ### SYS reports and reset values -/

/-- A word written as its four fields decodes by the mnemonic that its opcode value names (R59, R63). -/
theorem decode_append {m : OpcodeMap} {op : Byte} {o : Opcode} (h : m.lookup op = some o) (o1 o2 o3 : Byte) :
    decode m (op ++ o1 ++ o2 ++ o3) = instrOf o { op := op, o1 := o1, o2 := o2, o3 := o3 } := by
  have hfields : fieldsOf (op ++ o1 ++ o2 ++ o3) = { op := op, o1 := o1, o2 := o2, o3 := o3 } :=
    fieldsOf_packFields { op := op, o1 := o1, o2 := o2, o3 := o3 }
  simp only [decode, hfields, h]

/-- Settles O22, by the fault and the next state of SYS 0x01. -/
theorem sysRegReportsRegister : Obligations.SysRegReportsRegister := by
  intro s o2
  have hsys : defaultOpcodeMap.lookup 0x0D = some .sys := by decide
  refine ⟨fun o3 => decode_append hsys 0x01 o2 o3, fun hreg => ?_, fun hreg => ?_⟩
  · exact exec_eq_fault.mpr (.inl ⟨⟨o2, List.mem_singleton_self o2, hreg⟩, rfl⟩)
  · exact exec_sysReg_eq_next.mpr ⟨hreg, rfl⟩

/-- Settles O42: construction lists no cell but those of the launch parameters, and an unlisted index reads as the
array's default. -/
theorem constructionGivesResetValues : Obligations.ConstructionGivesResetValues := by
  refine ⟨?_, rfl⟩
  rintro cfg l s rfl
  refine ⟨rfl, fun _ => rfl, rfl, rfl, rfl, fun _ => rfl, fun _ => rfl, rfl, rfl, fun _ => rfl, fun _ => rfl,
    fun _ => rfl, fun _ => rfl, fun _ => rfl, fun hflat a => ?_, rfl⟩
  have hprot : (State.construct cfg l).prot = l.protInit := by simp [State.construct, hflat]
  rw [State.protBit, hprot]

end Sys2Proof.Machine

/-! Proofs of the statements of spec section 20, memory: one lemma per check of a translation, in the order of the
checks, and one per case of `mapPage`. -/

namespace Sys2Proof.Machine

section
variable {s : State} {va : Word} {k : AccessKind}

/-! ### The checks of PAGED translation (R43) -/

theorem translateAddr_paged (h : s.cfg.scheme = .paged) : translateAddr s va k = translatePaged s va k := by
  simp only [translateAddr, h]

theorem translatePaged_page_out_of_range (h : s.cfg.ptSize ≤ va.toNat / s.cfg.pageSize) :
    translatePaged s va k = .error .outOfRangePage := if_pos h

theorem translatePaged_page_absent (hvp : va.toNat / s.cfg.pageSize < s.cfg.ptSize)
    (hentry : s.pageEntry (va.toNat / s.cfg.pageSize) = none) : translatePaged s va k = .error .pageFault := by
  rw [translatePaged, if_neg (Nat.not_le.mpr hvp), hentry]

/-- With an entry for the virtual page, the permission and the bound are left to check (R45, R46). -/
theorem translatePaged_page_present {e : PageEntry} (hvp : va.toNat / s.cfg.pageSize < s.cfg.ptSize)
    (hentry : s.pageEntry (va.toNat / s.cfg.pageSize) = some e) :
    translatePaged s va k =
      if e.permissions.has k = false then .error .permissionFault
      else if s.cfg.memSize ≤ e.physicalPage.toNat * s.cfg.pageSize + va.toNat % s.cfg.pageSize then
        .error .outOfRangeMemory
      else .ok (e.physicalPage.toNat * s.cfg.pageSize + va.toNat % s.cfg.pageSize) := by
  rw [translatePaged, if_neg (Nat.not_le.mpr hvp), hentry]

/-! ### The checks of FLAT translation (R50) -/

theorem translateAddr_flat (h : s.cfg.scheme = .flat) : translateAddr s va k = translateFlat s va k := by
  simp only [translateAddr, h]

theorem translateFlat_out_of_range (h : s.cfg.memSize ≤ va.toNat) :
    translateFlat s va k = .error .outOfRangeMemory := if_pos h

/-- With the address in range, the protection bit is left to check (R51). -/
theorem translateFlat_in_range (h : va.toNat < s.cfg.memSize) :
    translateFlat s va k =
      if s.protBit va.toNat = true ∧ s.cfg.protDenies.has k = true then .error .permissionFault
      else .ok va.toNat := if_neg (Nat.not_le.mpr h)

/-! ### `mapPage` (R47) -/

variable {vp pp : Word} {perms : KindSet}

theorem mapPage_paged_out_of_range (hs : s.cfg.scheme = .paged) (h : s.cfg.ptSize ≤ vp.toNat) :
    mapPage vp pp perms s = .fault .outOfRangePage := by
  simp only [mapPage, hs, if_pos h]

theorem mapPage_paged_in_range (hs : s.cfg.scheme = .paged) (h : vp.toNat < s.cfg.ptSize) :
    mapPage vp pp perms s = .next (s.setPage vp.toNat (some { physicalPage := pp, permissions := perms })) := by
  simp only [mapPage, hs, if_neg (Nat.not_le.mpr h)]

theorem mapPage_flat (hs : s.cfg.scheme = .flat) : mapPage vp pp perms s = .refused .noMapPageInFlat := by
  simp only [mapPage, hs]

/-- A `mapPage` that faults leaves the state it found. -/
theorem hostCall_mapPage_of_fault {f : Fault} (h : mapPage vp pp perms s = .fault f) :
    hostCall (.mapPage vp pp perms) s = s := by
  simp only [hostCall, h]

end

/-- Settles O7, one check of R43 after the other. -/
theorem pagedTranslationInOrder : Obligations.PagedTranslationInOrder := by
  intro s va k hs
  rw [translateAddr_paged hs]
  refine ⟨translatePaged_page_out_of_range, fun hvp => ⟨translatePaged_page_absent hvp, fun e hentry => ?_⟩⟩
  rw [translatePaged_page_present hvp hentry]
  refine ⟨fun hdenied => if_pos hdenied, fun hallowed => ?_⟩
  rintro pa rfl
  rw [if_neg (by simp [hallowed])]
  exact ⟨fun hout => if_pos hout, fun hin => if_neg (Nat.not_le.mpr hin)⟩

/-- Settles O8: the bound, then the protection bit. -/
theorem flatTranslationInOrder : Obligations.FlatTranslationInOrder := by
  intro s va k hs
  rw [translateAddr_flat hs]
  refine ⟨translateFlat_out_of_range, fun hin => ?_⟩
  rw [translateFlat_in_range hin]
  refine ⟨fun hprot hdenies => if_pos ⟨hprot, hdenies⟩, fun hopen => if_neg ?_⟩
  rintro ⟨hprot, hdenies⟩
  simp [hprot, hdenies] at hopen

/-- Settles O48: a store writes no state that the translation of `pc` reads. -/
theorem storedCodeIsFetchedNext : Obligations.StoredCodeIsFetchedNext := by
  intro s t o1 o2 pa hstore hwrite hexecute
  obtain ⟨-, -, pb, hpb, rfl⟩ := exec_store_eq_next.mp hstore
  obtain rfl : pb = pa := Except.ok.inj (hpb.symm.trans hwrite)
  exact fetch_memWrite hexecute (regOf s o1)

/-- Settles O50, by the cases of `mapPage`: what an accepted call does is one write of the page table. -/
theorem mapPageInsertsReplacesOrRejects : Obligations.MapPageInsertsReplacesOrRejects := by
  intro vp pp perms s
  refine ⟨fun hs hvp => ?_, fun hs hvp => ?_, mapPage_flat⟩
  · have hfault : mapPage vp pp perms s = .fault .outOfRangePage := mapPage_paged_out_of_range hs hvp
    exact ⟨hfault, hostCall_mapPage_of_fault hfault⟩
  · exact ⟨_, mapPage_paged_in_range hs hvp, pageEntry_setPage_same _ _ _,
      fun _ hn => pageEntry_setPage_ne _ _ hn, rfl⟩

end Sys2Proof.Machine

/-! Proofs of the statements of spec section 30, the encoding: the fields of a word as numbers, what a value of the
opcode field names, what an instruction's operand fields must hold, and the decoder from these. -/

namespace Sys2Proof

/-! ### The fields of a word as numbers (R59) -/

theorem fieldsOf_op_toNat (w : Word) : (fieldsOf w).op.toNat = w.toNat / 2 ^ 24 := by
  have hw := w.isLt
  simp only [fieldsOf, BitVec.extractLsb'_toNat, Nat.shiftRight_eq_div_pow]
  omega

theorem fieldsOf_o1_toNat (w : Word) : (fieldsOf w).o1.toNat = w.toNat / 2 ^ 16 % 256 := by
  simp only [fieldsOf, BitVec.extractLsb'_toNat, Nat.shiftRight_eq_div_pow]

/-! ### What an opcode value names (R62, R63) -/

/-- Under an injective map an opcode value names the one mnemonic with that code. -/
theorem OpcodeMap.lookup_eq_some {m : OpcodeMap} (h : m.Injective) {op : Byte} {o : Opcode} :
    m.lookup op = some o ↔ op = m.code o :=
  ⟨fun hl => (OpcodeMap.code_of_lookup hl).symm, fun hc => hc ▸ OpcodeMap.lookup_code h o⟩

/-- Of the default map, the values 0x00 and 0x16 to 0xFF name nothing (R64): its codes are 0x01 to 0x15. -/
theorem defaultOpcodeMap_lookup_eq_none {op : Byte} :
    defaultOpcodeMap.lookup op = none ↔ op.toNat = 0 ∨ 0x16 ≤ op.toNat := by
  simp only [OpcodeMap.lookup, List.find?_eq_none, Opcode.all, List.forall_mem_cons, OpcodeMap.code, defaultOpcodeMap,
    beq_iff_eq, ← BitVec.toNat_inj, BitVec.ofNat_eq_ofNat, BitVec.toNat_ofNat, List.not_mem_nil, IsEmpty.forall_iff,
    implies_true, and_true]
  omega

theorem defaultOpcodeMap_lookup_eq_sys {op : Byte} : defaultOpcodeMap.lookup op = some .sys ↔ op.toNat = 0x0D := by
  rw [OpcodeMap.lookup_eq_some defaultOpcodeMap_wf.1, ← BitVec.toNat_inj]
  rfl

/-! ### What the operand fields of an instruction hold (R61, R65, R66) -/

/-- The operand fields that the instruction uses hold its operands, and so does the sub-op selector of SYS. -/
def Instr.FitsOperands (i : Instr) (f : Fields) : Prop :=
  f.o1 &&& i.usedFields.o1 = i.operands.1 ∧ f.o2 &&& i.usedFields.o2 = i.operands.2

/-- A used field is masked to itself. -/
@[simp] theorem byte_and_ones (b : Byte) : b &&& 255#8 = b := BitVec.and_allOnes

theorem eq_opcode_of_instrOf {o : Opcode} {f : Fields} {i : Instr} (h : instrOf o f = .ok i) : o = i.opcode := by
  cases o with
  | sys =>
    simp only [instrOf] at h
    split_ifs at h <;> cases h <;> rfl
  | _ => cases h; rfl

theorem instrOf_opcode_eq_ok {i : Instr} {f : Fields} : instrOf i.opcode f = .ok i ↔ i.FitsOperands f := by
  unfold Instr.FitsOperands
  cases i with
  | sysReg _ | sysMem _ =>
    simp only [Instr.opcode, instrOf]
    split_ifs <;> simp_all [Instr.usedFields, maskTwo, Instr.operands]
  | _ => simp [Instr.opcode, instrOf, Instr.usedFields, maskTwo, maskOne, maskNone, Instr.operands]

/-- An opcode and operand fields stand for an instruction when they are its opcode and its operands. -/
theorem instrOf_eq_ok {o : Opcode} {f : Fields} {i : Instr} :
    instrOf o f = .ok i ↔ o = i.opcode ∧ i.FitsOperands f := by
  constructor
  · intro h
    obtain rfl := eq_opcode_of_instrOf h
    exact ⟨rfl, instrOf_opcode_eq_ok.mp h⟩
  · rintro ⟨rfl, hfits⟩
    exact instrOf_opcode_eq_ok.mpr hfits

/-- SYS is the one opcode with fields that stand for no instruction (R66). -/
theorem instrOf_eq_error {o : Opcode} {f : Fields} :
    (∃ e, instrOf o f = .error e) ↔ o = .sys ∧ f.o1 ≠ 0x01 ∧ f.o1 ≠ 0x02 := by
  cases o with
  | sys =>
    simp only [instrOf]
    split_ifs <;> simp_all
  | _ => simp [instrOf]

/-! ### The decoder (R63, R64) -/

theorem decode_eq_ok {m : OpcodeMap} {w : Word} {i : Instr} :
    decode m w = .ok i ↔ m.lookup (fieldsOf w).op = some i.opcode ∧ i.FitsOperands (fieldsOf w) := by
  unfold decode
  cases m.lookup (fieldsOf w).op with
  | none => simp
  | some o => simp [instrOf_eq_ok]

theorem decode_eq_error {m : OpcodeMap} {w : Word} :
    (∃ e, decode m w = .error e) ↔ m.lookup (fieldsOf w).op = none ∨
      (m.lookup (fieldsOf w).op = some .sys ∧ (fieldsOf w).o1 ≠ 0x01 ∧ (fieldsOf w).o1 ≠ 0x02) := by
  unfold decode
  cases m.lookup (fieldsOf w).op with
  | none => simp
  | some o => simp [instrOf_eq_error]

/-- Under the default map a word is no instruction for its opcode value, or for the sub-op of a SYS word. -/
theorem decode_default_eq_error {w : Word} :
    (∃ e, decode defaultOpcodeMap w = .error e) ↔
      ((w.toNat / 2 ^ 24 = 0 ∨ 0x16 ≤ w.toNat / 2 ^ 24) ∨
        (w.toNat / 2 ^ 24 = 0x0D ∧ w.toNat / 2 ^ 16 % 256 ≠ 1 ∧ w.toNat / 2 ^ 16 % 256 ≠ 2)) := by
  rw [decode_eq_error, defaultOpcodeMap_lookup_eq_none, defaultOpcodeMap_lookup_eq_sys, fieldsOf_op_toNat,
    ← fieldsOf_o1_toNat, ne_eq, ne_eq, ← BitVec.toNat_inj, ← BitVec.toNat_inj]
  rfl

/-- The bits of a word that an instruction uses are those of its encoding when its opcode field and its operands are. -/
theorem and_usedBits_eq_encode {m : OpcodeMap} {w : Word} {i : Instr} :
    w &&& i.usedBits = encode m i ↔ (fieldsOf w).op = m.code i.opcode ∧ i.FitsOperands (fieldsOf w) := by
  have hop : i.usedFields.op = 0xFF := by cases i <;> rfl
  have ho3 : i.usedFields.o3 = 0 := by cases i <;> rfl
  calc w &&& i.usedBits = encode m i
      ↔ packFields (fieldsOf w) &&& packFields i.usedFields = encode m i := by
        rw [packFields_fieldsOf, Instr.usedBits]
    _ ↔ _ := by
        rw [packFields_and, encode, packFields_inj, hop, ho3]
        simp [Instr.FitsOperands]

/-- Reading the operand fields that the encoder gives an instruction gives the instruction back. -/
theorem instrOf_operands (i : Instr) : Laws.OperandsReadBack.Statement i := by
  cases i with
  | load => exact Laws.OperandsReadBack.load _ _
  | store => exact Laws.OperandsReadBack.store _ _
  | add => exact Laws.OperandsReadBack.add _ _
  | sub => exact Laws.OperandsReadBack.sub _ _
  | mul => exact Laws.OperandsReadBack.mul _ _
  | div => exact Laws.OperandsReadBack.div _ _
  | jump => exact Laws.OperandsReadBack.jump _
  | jumpIfZero => exact Laws.OperandsReadBack.jumpIfZero _ _
  | push => exact Laws.OperandsReadBack.push _
  | pop => exact Laws.OperandsReadBack.pop _
  | call => exact Laws.OperandsReadBack.call _
  | ret => exact Laws.OperandsReadBack.ret
  | sysReg => exact Laws.OperandsReadBack.sysReg _
  | sysMem => exact Laws.OperandsReadBack.sysMem _
  | cacheRead => exact Laws.OperandsReadBack.cacheRead _ _
  | cacheWrite => exact Laws.OperandsReadBack.cacheWrite _ _
  | privileged => exact Laws.OperandsReadBack.privileged
  | enterPrivileged => exact Laws.OperandsReadBack.enterPrivileged
  | exitPrivileged => exact Laws.OperandsReadBack.exitPrivileged
  | inPort => exact Laws.OperandsReadBack.inPort _ _
  | outPort => exact Laws.OperandsReadBack.outPort _ _
  | int => exact Laws.OperandsReadBack.int _

/-- Settles O1: both sides say that the opcode field is the instruction's code and that the fields it uses hold its
operands. -/
theorem decodeIsTheEncodingTable : Obligations.DecodeIsTheEncodingTable := by
  intro m h w i
  rw [decode_eq_ok, OpcodeMap.lookup_eq_some h, and_usedBits_eq_encode]

/-- Settles O2: the map's code names the opcode again, and the operand fields are read back. -/
theorem decodeOfEncodeIsIdentity : Obligations.DecodeOfEncodeIsIdentity := by
  intro m h i
  simp only [decode, fieldsOf_encode, OpcodeMap.lookup_code h]
  exact instrOf_operands i _ _

/-- A word that the encoding table gives an instruction decodes to it. -/
theorem decode_default_of_encode {w : Word} {i : Instr} (h : encode defaultOpcodeMap i = w) :
    decode defaultOpcodeMap w = .ok i :=
  h ▸ decodeOfEncodeIsIdentity defaultOpcodeMap defaultOpcodeMap_wf.1 i

/-- Settles O4: each word is the encoding of the instruction the spec names. -/
theorem specExampleWordsDecode : Obligations.SpecExampleWordsDecode := by
  refine ⟨?_, ?_, ?_, ?_, ?_, ?_, ?_, ?_, ?_, ?_⟩
  all_goals
    apply decode_default_of_encode
    decide

end Sys2Proof

namespace Sys2Proof.Machine

/-! ### Words that are no instruction (R64, R66) -/

/-- Executing a word that is no instruction raises InvalidOpcode (R64). -/
theorem step_of_decode_eq_error {s : State} {w : Word} {e : DecodeError} (hfetch : fetch s = .ok w)
    (hdecode : decode s.cfg.opcodeMap w = .error e) : step s = .fault .invalidOpcode :=
  step_eq_fault.mpr (.inr (.inl ⟨w, e, hfetch, hdecode, rfl⟩))

/-- Settles O3, by the two reasons a word is no instruction. -/
theorem undefinedWordsRaiseInvalidOpcode : Obligations.UndefinedWordsRaiseInvalidOpcode := by
  intro s w hmap hfetch
  refine ⟨?_, fun ⟨e, hdecode⟩ => step_of_decode_eq_error hfetch hdecode⟩
  rw [hmap]
  exact decode_default_eq_error

/-- Settles O39: a word that is no instruction faults, and no instruction's meaning refuses. -/
theorem noStepIsRefused : Obligations.NoStepIsRefused := step_ne_refused

/-- Settles O5: the translation of `pc` is the one check of a fetch, and a step begins with the fetch. -/
theorem fetchTranslatesForExecute : Obligations.FetchTranslatesForExecute := by
  refine fun s => ⟨fun f hfault => ?_, fun pa hpa => fetch_eq_ok.mpr ⟨pa, hpa, rfl⟩⟩
  have hfetch : fetch s = .error f := fetch_eq_error.mpr hfault
  exact ⟨hfetch, step_eq_fault.mpr (.inl hfetch)⟩

end Sys2Proof.Machine

/-! Proofs of the statements of spec section 40, loads and stores: what a write of one register or of one memory word
leaves alone, and the fault of an instruction with two register fields. -/

namespace Sys2Proof.Machine

section
variable {s : State} {f : Fault} {i : Instr} {o1 o2 : Byte}

/-! ### The frame of a register write and of a memory write -/

theorem onlyRegister_setRegOf (s : State) (o : Byte) (v : Word) : OnlyRegister o v s (setRegOf s o v) :=
  ⟨reg_setReg_same s o.toNat v, fun _ hn => reg_setReg_ne s v hn, rfl⟩

theorem onlyMemoryWord_memWrite (s : State) (pa : Nat) (v : Word) : OnlyMemoryWord pa v s (s.memWrite pa v) :=
  ⟨memRead_memWrite_same s pa v, fun _ ha => memRead_memWrite_ne s v ha, rfl⟩

/-! ### Instructions with two register fields (R17, R111) -/

theorem badRegister_iff_of_two (hfields : registerFields i = [o1, o2]) :
    BadRegister i s ↔ s.cfg.numRegs ≤ o1.toNat ∨ s.cfg.numRegs ≤ o2.toNat := by
  simp [BadRegister, hfields]

theorem exec_eq_invalidRegister_of_two (hfields : registerFields i = [o1, o2])
    (hbad : s.cfg.numRegs ≤ o1.toNat ∨ s.cfg.numRegs ≤ o2.toNat) : exec i s = .fault .invalidRegister :=
  exec_eq_fault.mpr (.inl ⟨(badRegister_iff_of_two hfields).mpr hbad, rfl⟩)

/-- With both fields in range the instruction raises what its later checks raise. -/
theorem exec_eq_laterFault_of_two (hfields : registerFields i = [o1, o2]) (h1 : o1.toNat < s.cfg.numRegs)
    (h2 : o2.toNat < s.cfg.numRegs) (hlater : LaterFault i s f) : exec i s = .fault f := by
  have hgood : ¬ BadRegister i s := by
    rw [badRegister_iff_of_two hfields]
    omega
  exact exec_eq_fault.mpr (.inr ⟨hgood, hlater⟩)

end

/-- Settles O9: the one check after the register checks is the translation for Read, and the one write is that of the
destination register. -/
theorem loadReadsTranslatedWord : Obligations.LoadReadsTranslatedWord := by
  intro s o1 o2
  have hcode : defaultOpcodeMap.lookup 0x01 = some .load := by decide
  refine ⟨fun o3 => decode_append hcode o1 o2 o3, exec_eq_invalidRegister_of_two rfl, fun h1 h2 => ⟨?_, ?_⟩⟩
  · exact fun f hfault => exec_eq_laterFault_of_two rfl h1 h2 hfault
  · exact fun pa hpa => ⟨_, exec_load_eq_next.mpr ⟨h1, h2, pa, hpa, rfl⟩, onlyRegister_setRegOf s o1 (s.memRead pa)⟩

/-- Settles O10: the one check after the register checks is the translation for Write, and the one write is that of the
translated memory word. -/
theorem storeWritesTranslatedWord : Obligations.StoreWritesTranslatedWord := by
  intro s o1 o2
  have hcode : defaultOpcodeMap.lookup 0x02 = some .store := by decide
  refine ⟨fun o3 => decode_append hcode o1 o2 o3, exec_eq_invalidRegister_of_two rfl, fun h1 h2 => ⟨?_, ?_⟩⟩
  · exact fun f hfault => exec_eq_laterFault_of_two rfl h1 h2 hfault
  · exact fun pa hpa => ⟨_, exec_store_eq_next.mpr ⟨h1, h2, pa, hpa, rfl⟩, onlyMemoryWord_memWrite s pa (regOf s o1)⟩

end Sys2Proof.Machine

/-! Proofs of the statements of spec section 41, arithmetic: what each ALU function returns as an integer, and the
instruction that writes it to its first register. -/

namespace Sys2Proof.Machine

/-! ### The ALU's results as integers (R77 to R79) -/

@[simp] theorem aluAdd_toNat (a b : Word) : (aluAdd a b).toNat = (a.toNat + b.toNat) % 2 ^ 32 :=
  BitVec.toNat_ofNat _ _

/-- The remainder of R78 is the one in 0 .. 2^32-1, which `Int.emod` gives also where the difference is negative. -/
@[simp] theorem aluSub_toNat (a b : Word) : ((aluSub a b).toNat : Int) = (a.toNat - b.toNat : Int) % 2 ^ 32 := by
  rw [aluSub, BitVec.toNat_ofInt]
  exact Int.toNat_of_nonneg (Int.emod_nonneg _ (by decide))

@[simp] theorem aluMul_toNat (a b : Word) : (aluMul a b).toNat = (a.toNat * b.toNat) % 2 ^ 32 :=
  BitVec.toNat_ofNat _ _

/-! ### The instructions -/

/-- Settles O11: after the register checks nothing faults, and the one write is that of the sum. -/
theorem addWrapsModuloWord : Obligations.AddWrapsModuloWord := by
  intro s o1 o2
  have hcode : defaultOpcodeMap.lookup 0x03 = some .add := by decide
  refine ⟨fun o3 => decode_append hcode o1 o2 o3, exec_eq_invalidRegister_of_two rfl, fun h1 h2 => ?_⟩
  exact ⟨_, _, exec_add_eq_next.mpr ⟨h1, h2, rfl⟩, onlyRegister_setRegOf s o1 _, aluAdd_toNat _ _⟩

/-- Settles O12: a negative difference is no fault, and the one write is that of the difference's remainder. -/
theorem subWrapsModuloWord : Obligations.SubWrapsModuloWord := by
  intro s o1 o2
  have hcode : defaultOpcodeMap.lookup 0x04 = some .sub := by decide
  refine ⟨fun o3 => decode_append hcode o1 o2 o3, exec_eq_invalidRegister_of_two rfl, fun h1 h2 => ?_⟩
  exact ⟨_, _, exec_sub_eq_next.mpr ⟨h1, h2, rfl⟩, onlyRegister_setRegOf s o1 _, aluSub_toNat _ _⟩

/-- Settles O13: a product past the word is no fault, and the one write is that of its low word. -/
theorem mulKeepsLowWord : Obligations.MulKeepsLowWord := by
  intro s o1 o2
  have hcode : defaultOpcodeMap.lookup 0x05 = some .mul := by decide
  refine ⟨fun o3 => decode_append hcode o1 o2 o3, exec_eq_invalidRegister_of_two rfl, fun h1 h2 => ?_⟩
  exact ⟨_, _, exec_mul_eq_next.mpr ⟨h1, h2, rfl⟩, onlyRegister_setRegOf s o1 _, aluMul_toNat _ _⟩

end Sys2Proof.Machine

/-! Proofs of the statements of spec section 42, branches, and of CALL: the one check of a jump's register field, the
outcomes of JUMP_IF_ZERO, and what clearing a predictor slot does. -/

namespace Sys2Proof.Machine

section
variable {s t u : State} {f : Fault} {i : Instr} {o1 o2 : Byte} {pa : Nat}

/-! ### Instructions with one register field (R17, R111) -/

theorem badRegister_iff_of_one (hfields : registerFields i = [o1]) :
    BadRegister i s ↔ s.cfg.numRegs ≤ o1.toNat := by
  simp [BadRegister, hfields]

theorem exec_eq_invalidRegister_of_one (hfields : registerFields i = [o1]) (hbad : s.cfg.numRegs ≤ o1.toNat) :
    exec i s = .fault .invalidRegister :=
  exec_eq_fault.mpr (.inl ⟨(badRegister_iff_of_one hfields).mpr hbad, rfl⟩)

/-- With its field in range the instruction raises what its later checks raise. -/
theorem exec_eq_laterFault_of_one (hfields : registerFields i = [o1]) (h1 : o1.toNat < s.cfg.numRegs)
    (hlater : LaterFault i s f) : exec i s = .fault f :=
  have hgood : ¬ BadRegister i s := mt (badRegister_iff_of_one hfields).mp (Nat.not_le.mpr h1)
  exec_eq_fault.mpr (.inr ⟨hgood, hlater⟩)

/-! ### The physical target as a word (R85) -/

/-- Both memory sizes that the source fixes are far below 2^32 (R7). -/
theorem memSize_lt_of_wf (h : s.cfg.wf) : s.cfg.memSize < 2 ^ 32 := by
  obtain ⟨-, hmem, -⟩ := h
  rw [hmem]
  cases s.cfg.scheme <;> decide

/-- A translated address loses nothing when it becomes the word in `pc`. -/
theorem translateAddr_eq_targetWord {va : Word} {k : AccessKind} (hwf : s.cfg.wf)
    (h : translateAddr s va k = .ok pa) : translateAddr s va k = .ok (targetWord pa).toNat := by
  rw [targetWord_toNat ((translateAddr_lt h).trans (memSize_lt_of_wf hwf)), h]

/-! ### Clearing a predictor slot (R84) -/

/-- Clearing a slot sets no slot. -/
theorem predTaken_of_clearPred {k n : Nat} (h : (s.clearPred k).predTaken n = true) : s.predTaken n = true := by
  by_cases hn : n = k
  · rw [hn, predTaken_clearPred_same] at h
    contradiction
  · rwa [predTaken_clearPred_ne s hn] at h

/-- Clearing a slot that is not taken changes no prediction. -/
theorem predTaken_clearPred_of_not_taken {k : Nat} (hk : s.predTaken k = false) (n : Nat) :
    (s.clearPred k).predTaken n = s.predTaken n := by
  by_cases hn : n = k
  · rw [hn, predTaken_clearPred_same, hk]
  · exact predTaken_clearPred_ne s hn

/-- A cleared slot has no cell left to remove. -/
@[simp] theorem clearPred_clearPred (s : State) (k : Nat) : (s.clearPred k).clearPred k = s.clearPred k := by
  simp [State.clearPred, cellSet, List.filter_filter]

/-! ### The outcomes of JUMP_IF_ZERO (R84) -/

theorem exec_jumpIfZero_fallThrough (h1 : o1.toNat < s.cfg.numRegs) (h2 : o2.toNat < s.cfg.numRegs)
    (hslot : s.predTaken (predSlot s) = false) (hcond : regOf s o1 ≠ 0) :
    exec (.jumpIfZero o1 o2) s = .next (s.clearPred (predSlot s)) :=
  exec_jumpIfZero_eq_next.mpr ⟨h1, h2, s, by rw [if_neg (by simpa [hslot] using hcond)], by rw [if_neg hcond]⟩

theorem exec_jumpIfZero_branch (h1 : o1.toNat < s.cfg.numRegs) (h2 : o2.toNat < s.cfg.numRegs)
    (hcond : regOf s o1 = 0) (hpa : translateAddr s (regOf s o2) .execute = .ok pa) :
    exec (.jumpIfZero o1 o2) s = .next (s.setPc (targetWord pa)) :=
  exec_jumpIfZero_eq_next.mpr ⟨h1, h2, _, by rw [if_pos (.inr hcond)]; exact ⟨pa, hpa, rfl⟩, by rw [if_pos hcond]⟩

theorem exec_jumpIfZero_wrongPath (h1 : o1.toNat < s.cfg.numRegs) (h2 : o2.toNat < s.cfg.numRegs)
    (hslot : s.predTaken (predSlot s) = true) (hcond : regOf s o1 ≠ 0)
    (hpa : translateAddr s (regOf s o2) .execute = .ok pa) :
    exec (.jumpIfZero o1 o2) s = .next ((s.setPc (targetWord pa)).clearPred (predSlot s)) :=
  exec_jumpIfZero_eq_next.mpr ⟨h1, h2, _, by rw [if_pos (.inl hslot)]; exact ⟨pa, hpa, rfl⟩, by rw [if_neg hcond]⟩

/-- A JUMP_IF_ZERO that redirects, on the right path or the wrong one, leaves the physical target in `pc`. -/
theorem pc_of_jumpIfZero_redirect (h : exec (.jumpIfZero o1 o2) s = .next t)
    (hredirect : regOf s o1 = 0 ∨ s.predTaken (predSlot s) = true) :
    ∃ pa, translateAddr s (regOf s o2) .execute = .ok pa ∧ t.pc = targetWord pa := by
  obtain ⟨-, -, u, hu, rfl⟩ := exec_jumpIfZero_eq_next.mp h
  rw [if_pos hredirect.symm] at hu
  obtain ⟨pa, hpa, rfl⟩ := hu
  exact ⟨pa, hpa, by split <;> rfl⟩

/-- A JUMP_IF_ZERO with a false condition clears its slot, and otherwise writes `pc` at most. -/
theorem eq_of_jumpIfZero_false (h : exec (.jumpIfZero o1 o2) s = .next t) (hcond : regOf s o1 ≠ 0) :
    t = (s.clearPred (predSlot s)).setPc t.pc := by
  obtain ⟨-, -, u, hu, rfl⟩ := exec_jumpIfZero_eq_next.mp h
  rw [if_neg hcond]
  split at hu
  · obtain ⟨pa, -, rfl⟩ := hu
    rfl
  · rw [hu]
    rfl

/-! ### Nothing sets a predictor slot (R86) -/

/-- Every slot taken in the second state is taken in the first. -/
def SetsNoSlot (s t : State) : Prop := ∀ slot, t.predTaken slot = true → s.predTaken slot = true

theorem SetsNoSlot.refl (s : State) : SetsNoSlot s s := fun _ h => h

theorem SetsNoSlot.trans (h : SetsNoSlot s t) (h' : SetsNoSlot t u) : SetsNoSlot s u :=
  fun slot hslot => h slot (h' slot hslot)

theorem setsNoSlot_of_pred_eq (h : t.pred = s.pred) : SetsNoSlot s t := fun slot hslot => by
  rwa [State.predTaken, h] at hslot

theorem clearPred_setsNoSlot (s : State) (k : Nat) : SetsNoSlot s (s.clearPred k) := fun _ => predTaken_of_clearPred

/-- JUMP_IF_ZERO clears a slot or leaves the predictor alone, and no other instruction writes it (R37). -/
theorem exec_setsNoSlot (h : exec i s = .next t) : SetsNoSlot s t := by
  by_cases hpred : StateField.pred ∈ mayWrite i
  · obtain ⟨o1, o2, rfl⟩ : ∃ o1 o2, i = .jumpIfZero o1 o2 := by
      cases i <;> simp_all [mayWrite]
    obtain ⟨-, -, u, hu, rfl⟩ := exec_jumpIfZero_eq_next.mp h
    have hsu : SetsNoSlot s u := by
      split at hu
      · obtain ⟨pa, -, rfl⟩ := hu
        exact setsNoSlot_of_pred_eq rfl
      · rw [hu]
        exact .refl s
    split
    · exact hsu
    · exact hsu.trans (clearPred_setsNoSlot u _)
  · exact setsNoSlot_of_pred_eq (exec_writes h .pred hpred)

theorem step_setsNoSlot (h : step s = .next t) : SetsNoSlot s t := by
  obtain ⟨w, i, u, -, -, hexec, rfl⟩ := step_eq_next.mp h
  have hadvance : SetsNoSlot s (s.setPc (s.pc + 1)) := setsNoSlot_of_pred_eq rfl
  exact (hadvance.trans (exec_setsNoSlot hexec)).trans (setsNoSlot_of_pred_eq rfl)

theorem stepCall_setsNoSlot (s : State) : SetsNoSlot s (stepCall s).1 := by
  unfold stepCall
  split
  next t hstep => exact step_setsNoSlot hstep
  all_goals exact .refl s

theorem runLoop_setsNoSlot (left n : Nat) (s : State) : SetsNoSlot s (runLoop left n s).2 := by
  fun_induction runLoop left n s with
  | case3 left n s hpc t hstep ih => exact (step_setsNoSlot hstep).trans ih
  | _ => exact .refl _

/-- Loading a program writes memory only. -/
theorem loadFrom_pred (a : Nat) (words : List Word) (s : State) : (loadFrom a words s).1.pred = s.pred := by
  fun_induction loadFrom a words s with
  | case2 a s w ws pa hpa ih => rw [ih, State.memWrite_pred]
  | _ => rfl

/-- Mapping a page writes the page table, or nothing. -/
theorem hostCall_mapPage_pred (vp pp : Word) (perms : KindSet) (s : State) :
    (hostCall (.mapPage vp pp perms) s).pred = s.pred := by
  cases hs : s.cfg.scheme with
  | flat => simp only [hostCall, mapPage_flat hs]
  | paged =>
    by_cases hvp : s.cfg.ptSize ≤ vp.toNat
    · rw [hostCall_mapPage_of_fault (mapPage_paged_out_of_range hs hvp)]
    · simp only [hostCall, mapPage_paged_in_range hs (Nat.not_le.mp hvp), State.setPage_pred]

end

/-! ### The statements -/

/-- Settles O17: the target translates below the memory size, which is a word, so `pc` holds it exactly. -/
theorem jumpsLeavePhysicalTargetInPc : Obligations.JumpsLeavePhysicalTargetInPc := by
  intro s t hwf
  refine ⟨fun o1 h => ?_, fun o1 h => ?_, fun o1 o2 h hredirect => ?_⟩
  · obtain ⟨-, pa, hpa, rfl⟩ := exec_jump_eq_next.mp h
    exact translateAddr_eq_targetWord hwf hpa
  · obtain ⟨-, -, pa, hpa, rfl⟩ := exec_call_eq_next.mp h
    exact translateAddr_eq_targetWord hwf hpa
  · obtain ⟨pa, hpa, hpc⟩ := pc_of_jumpIfZero_redirect h hredirect
    rw [hpc]
    exact translateAddr_eq_targetWord hwf hpa

/-- Settles O40: of all host calls only steps write the predictor, and a step clears a slot at most. -/
theorem nothingSetsAPredictorSlot : Obligations.NothingSetsAPredictorSlot := by
  intro c s
  cases c with
  | mapPage vp pp perms => exact setsNoSlot_of_pred_eq (hostCall_mapPage_pred vp pp perms s)
  | clear => exact setsNoSlot_of_pred_eq rfl
  | loadProgram words => exact setsNoSlot_of_pred_eq (loadFrom_pred 0 words s)
  | step => exact stepCall_setsNoSlot s
  | run max => exact runLoop_setsNoSlot max.toNat 0 s

/-- Settles O49: the first execution leaves its slot cleared, so the second falls through, and its own clearing finds
nothing to clear. -/
theorem wrongPathRedirectHappensOnce : Obligations.WrongPathRedirectHappensOnce := by
  intro s t o1 o2 h hcond
  have hagain : { t with pc := s.pc } = s.clearPred (predSlot s) := by
    rw [eq_of_jumpIfZero_false h hcond]
    rfl
  obtain ⟨h1, h2, -⟩ := exec_jumpIfZero_eq_next.mp h
  have hfall : exec (.jumpIfZero o1 o2) (s.clearPred (predSlot s)) =
      .next ((s.clearPred (predSlot s)).clearPred (predSlot s)) :=
    exec_jumpIfZero_fallThrough h1 h2 (predTaken_clearPred_same s _) hcond
  rw [hagain, hfall, clearPred_clearPred]

/-- Settles O15: the one check after the register check is the translation for Execute, and the two writes are those of
the BTB slot and of `pc`. -/
theorem jumpRecordsBranchAndGoesToTarget : Obligations.JumpRecordsBranchAndGoesToTarget := by
  intro s o1
  have hcode : defaultOpcodeMap.lookup 0x07 = some .jump := by decide
  refine ⟨fun o2 o3 => decode_append hcode o1 o2 o3, exec_eq_invalidRegister_of_one rfl, fun h1 => ⟨?_, ?_⟩⟩
  · exact fun f hfault => exec_eq_laterFault_of_one rfl h1 hfault
  · exact fun pa hpa => ⟨_, exec_jump_eq_next.mpr ⟨h1, pa, hpa, rfl⟩, rfl, btbEntry_recordBranch_same s,
      fun _ hn => btbEntry_recordBranch_ne s hn, rfl⟩

/-- Settles O16, one row of R84's table after the other. -/
theorem jumpIfZeroDoubleEvaluation : Obligations.JumpIfZeroDoubleEvaluation := by
  intro s o1 o2
  have hcode : defaultOpcodeMap.lookup 0x08 = some .jumpIfZero := by decide
  refine ⟨fun o3 => decode_append hcode o1 o2 o3, exec_eq_invalidRegister_of_two rfl, ?_⟩
  rintro h1 h2 slot rfl
  refine ⟨fun hslot hcond => ?_, fun hredirect f hfault => ?_, fun hcond pa hpa => ?_, fun hslot hcond pa hpa => ?_⟩
  · exact ⟨_, exec_jumpIfZero_fallThrough h1 h2 hslot hcond, predTaken_clearPred_of_not_taken hslot, rfl⟩
  · exact exec_eq_laterFault_of_two rfl h1 h2 ⟨hredirect, hfault⟩
  · exact exec_jumpIfZero_branch h1 h2 hcond hpa
  · exact ⟨_, exec_jumpIfZero_wrongPath h1 h2 hslot hcond hpa, rfl, predTaken_clearPred_same _ _,
      fun _ hn => predTaken_clearPred_ne (s.setPc (targetWord pa)) hn, rfl⟩

/-- Settles O20: the room check comes before the translation (D13), and the three writes are those of both stacks and of
`pc`. -/
theorem callPushesReturnAddressOnBothStacks : Obligations.CallPushesReturnAddressOnBothStacks := by
  intro s o1
  have hcode : defaultOpcodeMap.lookup 0x0B = some .call := by decide
  refine ⟨fun o2 o3 => decode_append hcode o1 o2 o3, exec_eq_invalidRegister_of_one rfl, fun h1 => ⟨?_, ?_⟩⟩
  · exact fun hfull => exec_eq_laterFault_of_one rfl h1 (.inl ⟨hfull.ge, rfl⟩)
  · exact fun hroom => ⟨fun f hfault => exec_eq_laterFault_of_one rfl h1 (.inr ⟨hroom, hfault⟩),
      fun pa hpa => exec_call_eq_next.mpr ⟨h1, hroom, pa, hpa, rfl⟩⟩

end Sys2Proof.Machine

/-! Proofs of the statements of spec section 43, the operand stack, calls and returns: what a pop does to an operand
stack written as its top on a rest, and a RET as one step. -/

namespace Sys2Proof.Machine

section
variable {s t : State} {rest : List Word} {v w : Word} {i : Instr} {o1 : Byte}

/-! ### An operand stack with a top (R87) -/

theorem getLast?_os_of_eq_append (hos : s.os = rest ++ [v]) : s.os.getLast? = some v := by
  rw [hos, List.getLast?_concat]

theorem dropOS_of_os_eq_append (hos : s.os = rest ++ [v]) : s.dropOS = { s with os := rest } := by
  rw [State.dropOS, hos, List.dropLast_concat]

theorem exec_pop_of_os_eq_append (h1 : o1.toNat < s.cfg.numRegs) (hos : s.os = rest ++ [v]) :
    exec (.pop o1) s = .next (setRegOf { s with os := rest } o1 v) :=
  exec_pop_eq_next.mpr ⟨h1, v, getLast?_os_of_eq_append hos, by rw [dropOS_of_os_eq_append hos]⟩

theorem exec_ret_of_os_eq_append (hos : s.os = rest ++ [v]) :
    exec .ret s = .next { s with pc := v, os := rest, ras := s.ras.dropLast } :=
  exec_ret_eq_next.mpr ⟨v, getLast?_os_of_eq_append hos, by rw [dropOS_of_os_eq_append hos]; rfl⟩

/-- RET names no register, so the empty operand stack is its first check. -/
theorem exec_ret_of_os_eq_nil (hos : s.os = []) : exec .ret s = .fault .stackUnderflow :=
  have hgood : ¬ BadRegister .ret s := by simp [BadRegister, registerFields]
  exec_eq_fault.mpr (.inr ⟨hgood, hos, rfl⟩)

/-! ### A CALL and a RET as whole steps (R68, R115) -/

theorem exec_of_step (hfetch : fetch s = .ok w) (hdecode : decode s.cfg.opcodeMap w = .ok i) (h : step s = .next t) :
    ∃ u, exec i (s.setPc (s.pc + 1)) = .next u ∧ t = u.countStep := by
  obtain ⟨w', i', u, hfetch', hdecode', hexec, rfl⟩ := step_eq_next.mp h
  obtain rfl : w = w' := Except.ok.inj (hfetch.symm.trans hfetch')
  obtain rfl : i = i' := Except.ok.inj (hdecode.symm.trans hdecode')
  exact ⟨u, hexec, rfl⟩

/-- The word that RET pops overwrites the `ia + 1` that the step wrote to `pc`. -/
theorem step_ret_of_os_eq_append (hfetch : fetch s = .ok w) (hdecode : decode s.cfg.opcodeMap w = .ok .ret)
    (hos : s.os = rest ++ [v]) :
    step s = .next { s with pc := v, os := rest, ras := s.ras.dropLast, icount := s.icount + 1 } :=
  step_eq_next.mpr ⟨w, .ret, _, hfetch, hdecode, exec_ret_of_os_eq_append (s := s.setPc (s.pc + 1)) hos, rfl⟩

/-- The return address on both stacks is the `ia + 1` that the step wrote to `pc`. -/
theorem step_call_eq_next (hfetch : fetch s = .ok w) (hdecode : decode s.cfg.opcodeMap w = .ok (.call o1))
    (h : step s = .next t) :
    t = { s with pc := t.pc, os := s.os ++ [s.pc + 1], ras := s.ras ++ [s.pc + 1], icount := s.icount + 1 } := by
  obtain ⟨u, hexec, rfl⟩ := exec_of_step hfetch hdecode h
  obtain ⟨-, -, pa, -, rfl⟩ := exec_call_eq_next.mp hexec
  rfl

end

/-! ### The statements -/

/-- Settles O46: RET pops the return address that CALL pushed, and drops its copy from the return-address stack. -/
theorem callThenRetReturns : Obligations.CallThenRetReturns := by
  intro s t w v o1 hfetch hdecode hcall hfetch' hdecode'
  have ht := step_call_eq_next hfetch hdecode hcall
  have hos : t.os = s.os ++ [s.pc + 1] := by rw [ht]
  refine ⟨_, step_ret_of_os_eq_append hfetch' hdecode' hos, ?_⟩
  rw [ht, List.dropLast_concat]

/-- Settles O18: the room check comes after the register check, and the one write is that of the operand stack. -/
theorem pushAppendsOrOverflows : Obligations.PushAppendsOrOverflows := by
  intro s o1
  have hcode : defaultOpcodeMap.lookup 0x09 = some .push := by decide
  refine ⟨fun o2 o3 => decode_append hcode o1 o2 o3, exec_eq_invalidRegister_of_one rfl, fun h1 => ⟨?_, ?_⟩⟩
  · exact fun hfull => exec_eq_laterFault_of_one rfl h1 ⟨hfull.ge, rfl⟩
  · exact fun hroom => exec_push_eq_next.mpr ⟨h1, hroom, rfl⟩

/-- Settles O19: the underflow check comes after the register check, and the writes are those of the operand stack and
of the register. -/
theorem popTakesTopOrUnderflows : Obligations.PopTakesTopOrUnderflows := by
  intro s o1
  have hcode : defaultOpcodeMap.lookup 0x0A = some .pop := by decide
  refine ⟨fun o2 o3 => decode_append hcode o1 o2 o3, exec_eq_invalidRegister_of_one rfl, fun h1 => ⟨?_, ?_⟩⟩
  · exact fun hempty => exec_eq_laterFault_of_one rfl h1 ⟨hempty, rfl⟩
  · exact fun rest v hos => ⟨_, exec_pop_of_os_eq_append h1 hos, onlyRegister_setRegOf { s with os := rest } o1 v⟩

/-- Settles O21: the top of `RAS` is dropped unread (R92), and dropping from an empty `RAS` leaves it empty. -/
theorem retPopsPcAndDropsReturnAddress : Obligations.RetPopsPcAndDropsReturnAddress := by
  intro s
  have hcode : defaultOpcodeMap.lookup 0x0C = some .ret := by decide
  refine ⟨fun o1 o2 o3 => decode_append hcode o1 o2 o3, exec_ret_of_os_eq_nil, fun rest v hos => ?_⟩
  refine ⟨_, exec_ret_of_os_eq_append hos, fun hras => ?_, fun r w hras => ?_, rfl⟩
  · rw [hras, List.dropLast_nil]
  · rw [hras, List.dropLast_concat]

end Sys2Proof.Machine

/-! Proof of the statement of spec section 44, the cache copy to memory. -/

namespace Sys2Proof.Machine

/-- Settles O25: the slot check comes after the register check and before the translation for Write (D6), and the one
write is that of the translated memory word (D21). -/
theorem cacheWriteCopiesSlotToMemory : Obligations.CacheWriteCopiesSlotToMemory := by
  intro s o1 o2
  have hcode : defaultOpcodeMap.lookup 0x0F = some .cacheWrite := by decide
  refine ⟨fun o3 => decode_append hcode o1 o2 o3, exec_eq_invalidRegister_of_one rfl, fun h2 => ⟨?_, ?_⟩⟩
  · exact fun hslot => exec_eq_laterFault_of_one rfl h2 (.inl ⟨hslot, rfl⟩)
  · exact fun hslot => ⟨fun f hfault => exec_eq_laterFault_of_one rfl h2 (.inr ⟨hslot, hfault⟩),
      fun pa hpa => ⟨_, exec_cacheWrite_eq_next.mpr ⟨h2, hslot, pa, hpa, rfl⟩,
        onlyMemoryWord_memWrite s pa (s.cacheSlot o1.toNat)⟩⟩

end Sys2Proof.Machine

/-! Proofs of the statements of spec section 45, privilege and I/O ports: the fault of an instruction with no register
field, and what a write of one port leaves alone. -/

namespace Sys2Proof.Machine

section
variable {s : State} {f : Fault} {i : Instr}

/-- An instruction with no register field raises what its own checks raise. -/
theorem exec_eq_laterFault_of_none (hfields : registerFields i = []) (hlater : LaterFault i s f) :
    exec i s = .fault f :=
  have hgood : ¬ BadRegister i s := by simp [BadRegister, hfields]
  exec_eq_fault.mpr (.inr ⟨hgood, hlater⟩)

theorem onlyPort_setPort (s : State) (p : Byte) (v : Word) : OnlyPort p v s (s.setPort p.toNat v) :=
  ⟨port_setPort_same s p.toNat v, fun _ hn => port_setPort_ne s v hn, rfl⟩

end

/-- Settles O26: the mode check is the one check of PRIVILEGED, and it writes nothing. -/
theorem privilegedChecksMode : Obligations.PrivilegedChecksMode := by
  intro s
  have hcode : defaultOpcodeMap.lookup 0x10 = some .privileged := by decide
  refine ⟨fun o1 o2 o3 => decode_append hcode o1 o2 o3, fun huser => ?_, fun hpriv => ?_⟩
  · exact exec_eq_laterFault_of_none rfl ⟨huser, rfl⟩
  · exact exec_privileged_eq_next.mpr ⟨hpriv, rfl⟩

/-- Settles O27: the one write is that of the mode, with no check before it. -/
theorem enterPrivilegedAlwaysEnters : Obligations.EnterPrivilegedAlwaysEnters := by
  intro s
  have hcode : defaultOpcodeMap.lookup 0x11 = some .enterPrivileged := by decide
  exact ⟨fun o1 o2 o3 => decode_append hcode o1 o2 o3, exec_enterPrivileged_eq_next.mpr rfl⟩

/-- Settles O28: the one write is that of the mode, with no check before it. -/
theorem exitPrivilegedAlwaysExits : Obligations.ExitPrivilegedAlwaysExits := by
  intro s
  have hcode : defaultOpcodeMap.lookup 0x12 = some .exitPrivileged := by decide
  exact ⟨fun o1 o2 o3 => decode_append hcode o1 o2 o3, exec_exitPrivileged_eq_next.mpr rfl⟩

/-- Settles O29: the port check comes after the register check, and the one write is that of the destination
register. -/
theorem inReadsPort : Obligations.InReadsPort := by
  intro s o1 o2
  have hcode : defaultOpcodeMap.lookup 0x13 = some .inPort := by decide
  refine ⟨fun o3 => decode_append hcode o1 o2 o3, exec_eq_invalidRegister_of_one rfl, fun h1 => ⟨?_, ?_⟩⟩
  · exact fun hport => exec_eq_laterFault_of_one rfl h1 ⟨hport, rfl⟩
  · exact fun hport => ⟨_, exec_inPort_eq_next.mpr ⟨h1, hport, rfl⟩, onlyRegister_setRegOf s o1 (s.port o2.toNat)⟩

/-- Settles O30: the port check comes after the register check, and the one write is that of the port. -/
theorem outWritesPort : Obligations.OutWritesPort := by
  intro s o1 o2
  have hcode : defaultOpcodeMap.lookup 0x14 = some .outPort := by decide
  refine ⟨fun o3 => decode_append hcode o1 o2 o3, exec_eq_invalidRegister_of_one rfl, fun h1 => ⟨?_, ?_⟩⟩
  · exact fun hport => exec_eq_laterFault_of_one rfl h1 ⟨hport, rfl⟩
  · exact fun hport => ⟨_, exec_outPort_eq_next.mpr ⟨h1, hport, rfl⟩, onlyPort_setPort s o2 (regOf s o1)⟩

end Sys2Proof.Machine

/-! Proof of the statement of spec section 46, the return from an interrupt: an INT as one step, and the RET after it. -/

namespace Sys2Proof.Machine

section
variable {s t : State} {w : Word} {o1 : Byte}

/-- The return address on the operand stack is the `ia + 1` that the step wrote to `pc`; unlike CALL, INT leaves `RAS`
alone. -/
theorem step_int_eq_next (hfetch : fetch s = .ok w) (hdecode : decode s.cfg.opcodeMap w = .ok (.int o1))
    (h : step s = .next t) :
    t = { s with pc := s.vector o1.toNat, mode := .privileged, os := s.os ++ [s.pc + 1], icount := s.icount + 1 } := by
  obtain ⟨u, hexec, rfl⟩ := exec_of_step hfetch hdecode h
  obtain ⟨-, -, rfl⟩ := exec_int_eq_next.mp hexec
  rfl

end

/-- Settles O47: RET pops the return address that INT pushed and keeps the Privileged mode that INT entered, and drops a
top of `RAS` that INT did not push (R107); dropping from an empty `RAS` leaves it empty (D23). -/
theorem intThenRetStaysPrivileged : Obligations.IntThenRetStaysPrivileged := by
  intro s t w v o1 hfetch hdecode hint hfetch' hdecode'
  have ht := step_int_eq_next hfetch hdecode hint
  have hos : t.os = s.os ++ [s.pc + 1] := by rw [ht]
  refine ⟨_, step_ret_of_os_eq_append hfetch' hdecode' hos, ?_⟩
  rw [ht]

end Sys2Proof.Machine

/-! Proofs of the statements of spec section 60, exceptions and runs: a decoded step and INT, the halt codes, where and
why the run loop stops, and what the mode does not decide. -/

namespace Sys2Proof.Machine

/-! ### A decoded step (R68, R115) and interrupt entry (R105) -/

/-- Settles O6: neither fetch nor decode faults, so the outcome is that of the execute phase. -/
theorem stepRunsTheDecodedInstruction : Obligations.StepRunsTheDecodedInstruction := by
  intro s w i hfetch hdecode
  constructor
  · exact fun t hexec => step_eq_next.mpr ⟨w, i, t, hfetch, hdecode, hexec, rfl⟩
  · exact fun f hexec => step_eq_fault.mpr (.inr (.inr ⟨w, i, hfetch, hdecode, hexec⟩))

/-- Settles O31: the range check comes before the room check (D25), and the three writes are those of the operand stack,
of `pc` and of the mode. -/
theorem intEntersVectoredHandler : Obligations.IntEntersVectoredHandler := by
  intro s o1
  have hcode : defaultOpcodeMap.lookup 0x15 = some .int := by decide
  refine ⟨fun o2 o3 => decode_append hcode o1 o2 o3, fun hrange => ?_, fun hvector => ⟨fun hfull => ?_, fun hroom => ?_⟩⟩
  · exact exec_eq_laterFault_of_none rfl (.inl ⟨hrange, rfl⟩)
  · exact exec_eq_laterFault_of_none rfl (.inr ⟨hvector, hfull.ge, rfl⟩)
  · exact exec_int_eq_next.mpr ⟨hvector, hroom, rfl⟩

/-! ### Halt codes (R109, R114) -/

/-- The halt reasons of R114, each fault by its own. -/
def codedReasons : List HaltReason :=
  [.budgetExhausted, .pcOutOfRange, .fault .outOfRangeMemory, .fault .outOfRangePage, .fault .pageFault,
   .fault .permissionFault, .fault .privilegeFault, .fault .stackOverflow, .fault .stackUnderflow,
   .fault .divisionByZero, .fault .invalidOpcode, .fault .invalidRegister, .fault .outOfRangePort,
   .fault .outOfRangeInterrupt]

/-- A halt reason with a code is one of R114's. -/
theorem mem_codedReasons {h : HaltReason} {c : Byte} (hc : haltCode h = some c) : h ∈ codedReasons := by
  cases h with
  | budgetExhausted => decide
  | pcOutOfRange => decide
  | fault f => cases f <;> decide
  | refused r => cases hc

/-- No code stands twice in the tables of R109 and R114. -/
theorem nodup_map_haltCode : (codedReasons.map haltCode).Nodup := by decide

/-- Settles O57: both reasons stand in a table whose codes are all different. -/
theorem haltCodesAreDistinct : Obligations.HaltCodesAreDistinct :=
  fun _ _ _ hg hh =>
    List.inj_on_of_nodup_map nodup_map_haltCode (mem_codedReasons hg) (mem_codedReasons hh) (hg.trans hh.symm)

/-! ### Where a run stops, and why (R113, R114) -/

/-- What a halt reason says of a loop that had `left` steps to go and stopped in `t` after `k` of them. -/
def StopsFor (left k : Nat) (t : State) : HaltReason → Prop
  | .budgetExhausted => k = left
  | .pcOutOfRange => k < left ∧ t.cfg.memSize ≤ t.pc.toNat
  | .fault f => k < left ∧ t.pc.toNat < t.cfg.memSize ∧ step t = .fault f
  | .refused _ => False

section
variable {left k : Nat} {t : State} {h : HaltReason}

/-- A loop takes no more steps than it had to go. -/
theorem StopsFor.le (hstop : StopsFor left k t h) : k ≤ left := by
  cases h with
  | budgetExhausted => exact Nat.le_of_eq hstop
  | pcOutOfRange => exact Nat.le_of_lt hstop.1
  | fault f => exact Nat.le_of_lt hstop.1
  | refused r => exact hstop.elim

/-- One step more, and one more to go, leave the reason as it is. -/
theorem StopsFor.succ (hstop : StopsFor left k t h) : StopsFor (left + 1) (k + 1) t h := by
  cases h with
  | budgetExhausted => exact congrArg Nat.succ hstop
  | pcOutOfRange => exact ⟨Nat.succ_lt_succ hstop.1, hstop.2⟩
  | fault f => exact ⟨Nat.succ_lt_succ hstop.1, hstop.2⟩
  | refused r => exact hstop.elim

end

/-- The loop stops in the state that some number `k` of steps reaches, counts them, and gives a reason that holds
there. -/
theorem runLoop_stops (left n : Nat) (s : State) : ∃ k,
    Host.Core.run Sys2Proof.core k s = .next (runLoop left n s).2 ∧
      (runLoop left n s).1.instructionsExecuted = BitVec.ofNat 32 (n + k) ∧
      StopsFor left k (runLoop left n s).2 (runLoop left n s).1.haltReason := by
  fun_induction runLoop left n s with
  | case1 n s => exact ⟨0, rfl, rfl, rfl⟩
  | case2 left n s hpc => exact ⟨0, rfl, rfl, Nat.succ_pos left, hpc⟩
  | case3 left n s hpc t hstep ih =>
    obtain ⟨k, hrun, hcount, hstop⟩ := ih
    exact ⟨k + 1, (core_run_succ k hstep).trans hrun, by rw [hcount, Nat.add_assoc, Nat.add_comm 1 k], hstop.succ⟩
  | case4 left n s hpc f hstep => exact ⟨0, rfl, rfl, Nat.succ_pos left, Nat.not_le.mp hpc, hstep⟩
  | case5 left n s hpc r hstep => exact absurd hstep (step_ne_refused s r)

/-- A run's own count is the number of steps it took: its budget is a word, so the count does not wrap. -/
theorem run_stops (max : Word) (s : State) :
    Host.Core.run Sys2Proof.core (run max s).1.instructionsExecuted.toNat s = .next (run max s).2 ∧
      StopsFor max.toNat (run max s).1.instructionsExecuted.toNat (run max s).2 (run max s).1.haltReason := by
  obtain ⟨k, hrun, hcount, hstop⟩ := runLoop_stops max.toNat 0 s
  have hk : (run max s).1.instructionsExecuted.toNat = k := by
    rw [run, hcount, Nat.zero_add, BitVec.toNat_ofNat, Nat.mod_eq_of_lt (hstop.le.trans_lt max.isLt)]
  rw [hk]
  exact ⟨hrun, hstop⟩

/-- Settles O53, one halt reason after the other. -/
theorem runStopsWithinBudgetForItsReason : Obligations.RunStopsWithinBudgetForItsReason := by
  intro max s t h n hreport
  have hstops := run_stops max s
  rw [hreport] at hstops
  obtain ⟨hrun, hstop⟩ := hstops
  refine ⟨hrun, ?_⟩
  cases h with
  | budgetExhausted => exact .inl ⟨rfl, BitVec.eq_of_toNat_eq hstop⟩
  | pcOutOfRange => exact .inr (.inl ⟨rfl, hstop⟩)
  | fault f => exact .inr (.inr ⟨f, rfl, hstop⟩)
  | refused r => exact hstop.elim

/-- Settles O54: the first run stopped where the step faults, and the second takes that step first. -/
theorem runAgainReraisesFault : Obligations.RunAgainReraisesFault := by
  intro max again s f hhalt hagain
  obtain ⟨-, hstop⟩ := run_stops max s
  rw [hhalt] at hstop
  obtain ⟨-, hpc, hfault⟩ := hstop
  obtain ⟨left, hleft⟩ : ∃ left, again.toNat = left + 1 :=
    Nat.exists_eq_succ_of_ne_zero fun h0 => hagain (BitVec.eq_of_toNat_eq h0)
  have hrun : run again (run max s).2 = runLoop (left + 1) 0 (run max s).2 := by rw [run, hleft]
  exact hrun.trans (runLoop_fault left 0 hpc hfault)

/-! ### What the mode does not decide (R122) -/

section
variable {α : Type} {view : State → State}

/-- Meanings that begin with the same check are seen alike when what follows it is. -/
theorem seenThrough_check_congr {c : Except Fault α} {g g' : α → Except Fault State}
    (h : ∀ a, seenThrough view (settle (g a)) = seenThrough view (settle (g' a))) :
    seenThrough view (settle (c >>= g)) = seenThrough view (settle (c >>= g')) := by
  cases c with
  | ok a => exact h a
  | error f => rfl

/-- Meanings that begin with an operation and with its image under `φ` are seen alike when what follows is. -/
theorem seenThrough_bind_congr {c c' : Except Fault α} {φ : α → α} {g g' : α → Except Fault State} (hc : c' = φ <$> c)
    (h : ∀ a, seenThrough view (settle (g' (φ a))) = seenThrough view (settle (g a))) :
    seenThrough view (settle (c' >>= g')) = seenThrough view (settle (c >>= g)) := by
  subst hc
  cases c with
  | ok a => exact h a
  | error f => rfl

end

section
variable (s : State) (m : Mode)

/-! Each of these operations does the same in every mode, and leaves the mode as it is. -/

theorem pushOS_setMode (v : Word) : pushOS (s.setMode m) v = (·.setMode m) <$> pushOS s v := by
  have hroom : checkRoom (s.setMode m) = checkRoom s := rfl
  simp only [pushOS, hroom, map_bind, map_pure]
  rfl

theorem popOS_setMode : popOS (s.setMode m) = Prod.map id (·.setMode m) <$> popOS s := by
  simp only [popOS, State.setMode_os]
  cases s.os.getLast? <;> rfl

theorem redirect_setMode (o : Byte) : redirect (s.setMode m) o = (·.setMode m) <$> redirect s o := by
  have htarget : indirectAddress (s.setMode m) o .execute = indirectAddress s o .execute := rfl
  simp only [redirect, htarget, map_bind, map_pure]
  rfl

theorem speculate_setMode (o : Byte) : speculate (s.setMode m) o = (·.setMode m) <$> speculate s o := by
  have hslot : (s.setMode m).predTaken (predSlot (s.setMode m)) = s.predTaken (predSlot s) := rfl
  rw [speculate, speculate, hslot, redirect_setMode]
  split <;> rfl

theorem branchIfZero_setMode (o1 o2 : Byte) (slot : Nat) :
    branchIfZero (s.setMode m) o1 o2 slot = (·.setMode m) <$> branchIfZero s o1 o2 slot := by
  have hcondition : regOf (s.setMode m) o1 = regOf s o1 := rfl
  rw [branchIfZero, branchIfZero, hcondition, redirect_setMode]
  split <;> rfl

end

theorem seenThrough_eraseMode_settle_setMode (c : Except Fault State) (m : Mode) :
    seenThrough eraseMode (settle ((·.setMode m) <$> c)) = seenThrough eraseMode (settle c) := by
  cases c <;> rfl

/-- Settles O37: every check but that of PRIVILEGED answers the same in both modes, and every write but that of the mode
writes the same. -/
theorem modeGatesOnlyPrivileged : Obligations.ModeGatesOnlyPrivileged := by
  intro i s m hi
  change seenThrough eraseMode (exec i (s.setMode m)) = seenThrough eraseMode (exec i s)
  cases i with
  | privileged => exact absurd rfl hi
  | enterPrivileged | exitPrivileged => rfl
  | sysReg | sysMem => exact seenThrough_check_congr fun _ => rfl
  | add | sub | mul | jump | push | inPort | outPort =>
    exact seenThrough_check_congr fun _ => seenThrough_check_congr fun _ => rfl
  | load | store | div | cacheRead | cacheWrite =>
    exact seenThrough_check_congr fun _ => seenThrough_check_congr fun _ => seenThrough_check_congr fun _ => rfl
  | jumpIfZero o1 o2 =>
    refine seenThrough_check_congr fun _ => seenThrough_check_congr fun _ =>
      seenThrough_bind_congr (speculate_setMode s m o2) fun u => ?_
    exact (congrArg (fun c => seenThrough eraseMode (settle c)) (branchIfZero_setMode u m o1 o2 _)).trans
      (seenThrough_eraseMode_settle_setMode _ m)
  | pop o1 => exact seenThrough_check_congr fun _ => seenThrough_bind_congr (popOS_setMode s m) fun _ => rfl
  | ret => exact seenThrough_bind_congr (popOS_setMode s m) fun _ => rfl
  | call o1 =>
    exact seenThrough_check_congr fun _ => seenThrough_check_congr fun _ => seenThrough_check_congr fun _ =>
      seenThrough_bind_congr (pushOS_setMode s m s.pc) fun _ => rfl
  | int o1 =>
    exact seenThrough_check_congr fun _ => seenThrough_bind_congr (pushOS_setMode s m s.pc) fun _ => rfl

end Sys2Proof.Machine

/-! Proofs of the statements of spec section 70, launch states: each write of the state keeps their invariants, then
each instruction, each step and each host call does. -/

namespace Sys2Proof.Machine

/-! ### Arrays in canonical form and within their size -/

section
variable {α : Type} [DecidableEq α] {d : α} {c : Cells α} {n k : Nat}

theorem nil_fits : CellsCanonical d ([] : Cells α) ∧ CellsBelow n ([] : Cells α) :=
  ⟨⟨.nil, fun _ hp => absurd hp List.not_mem_nil⟩, fun _ hp => absurd hp List.not_mem_nil⟩

theorem cellSet_fits (hc : CellsCanonical d c ∧ CellsBelow n c) (hk : k < n) (v : α) :
    CellsCanonical d (cellSet d c k v) ∧ CellsBelow n (cellSet d c k v) :=
  ⟨cellSet_canonical hc.1 k v, cellSet_below hc.2 hk v⟩

/-- Writing the default value only removes a cell, so the index needs no bound. -/
theorem cellSet_default_fits (hc : CellsCanonical d c ∧ CellsBelow n c) (k : Nat) :
    CellsCanonical d (cellSet d c k d) ∧ CellsBelow n (cellSet d c k d) := by
  refine ⟨cellSet_canonical hc.1 k d, fun p hp => hc.2 p ?_⟩
  rw [cellSet, if_pos rfl] at hp
  exact (List.mem_filter.mp hp).1

end

section
variable {s t : State} {k : Nat}

/-! ### Each write of the state keeps the invariants (R136) -/

theorem setReg_wf (h : s.wf) (hk : k < s.cfg.numRegs) (v : Word) : (s.setReg k v).wf := by
  obtain ⟨hcfg, hos, ⟨hx, hrest⟩, hscheme⟩ := h
  exact ⟨hcfg, hos, ⟨cellSet_fits hx hk v, hrest⟩, hscheme⟩

theorem memWrite_keeps_wf (h : s.wf) (hk : k < s.cfg.memSize) (v : Word) : (s.memWrite k v).wf := by
  obtain ⟨hcfg, hos, ⟨hx, hmem, hrest⟩, hscheme⟩ := h
  exact ⟨hcfg, hos, ⟨hx, cellSet_fits hmem hk v, hrest⟩, hscheme⟩

/-- Only PAGED has a page table to write (R24). -/
theorem setPage_wf (h : s.wf) (hs : s.cfg.scheme = .paged) (hk : k < s.cfg.ptSize) (e : Option PageEntry) :
    (s.setPage k e).wf := by
  obtain ⟨hcfg, hos, ⟨hx, hmem, hpt, hrest⟩, hprot, -⟩ := h
  exact ⟨hcfg, hos, ⟨hx, hmem, cellSet_fits hpt hk e, hrest⟩, hprot, fun hflat => by simp [hs] at hflat⟩

theorem clearPred_wf (h : s.wf) (k : Nat) : (s.clearPred k).wf := by
  obtain ⟨hcfg, hos, ⟨hx, hmem, hpt, hpred, hrest⟩, hscheme⟩ := h
  exact ⟨hcfg, hos, ⟨hx, hmem, hpt, cellSet_default_fits hpred k, hrest⟩, hscheme⟩

theorem btbSize_pos_of_wf (h : s.cfg.wf) : 0 < s.cfg.btbSize := by
  obtain ⟨-, -, -, -, -, -, hbtb, -⟩ := h
  exact hbtb

/-- The slot is a remainder by `BTB_SIZE`, which R7 keeps above 0. -/
theorem recordBranch_wf (h : s.wf) : s.recordBranch.wf := by
  obtain ⟨hcfg, hos, ⟨hx, hmem, hpt, hpred, hbtb, hrest⟩, hscheme⟩ := h
  have hslot : s.pc.toNat % s.cfg.btbSize < s.cfg.btbSize := Nat.mod_lt _ (btbSize_pos_of_wf hcfg)
  exact ⟨hcfg, hos, ⟨hx, hmem, hpt, hpred, cellSet_fits hbtb hslot s.pc, hrest⟩, hscheme⟩

theorem setCache_wf (h : s.wf) (hk : k < s.cfg.cacheSlots) (v : Word) : (s.setCache k v).wf := by
  obtain ⟨hcfg, hos, ⟨hx, hmem, hpt, hpred, hbtb, hcache, hrest⟩, hscheme⟩ := h
  exact ⟨hcfg, hos, ⟨hx, hmem, hpt, hpred, hbtb, cellSet_fits hcache hk v, hrest⟩, hscheme⟩

theorem setPort_wf (h : s.wf) (hk : k < s.cfg.numPorts) (v : Word) : (s.setPort k v).wf := by
  obtain ⟨hcfg, hos, ⟨hx, hmem, hpt, hpred, hbtb, hcache, hports, hrest⟩, hscheme⟩ := h
  exact ⟨hcfg, hos, ⟨hx, hmem, hpt, hpred, hbtb, hcache, cellSet_fits hports hk v, hrest⟩, hscheme⟩

theorem appendOS_wf (h : s.wf) (hroom : s.os.length < s.cfg.stackDepth) (v : Word) : (s.appendOS v).wf := by
  obtain ⟨hcfg, -, hrest⟩ := h
  have hos : (s.appendOS v).os.length ≤ s.cfg.stackDepth := by simpa using hroom
  exact ⟨hcfg, hos, hrest⟩

theorem dropOS_wf (h : s.wf) : s.dropOS.wf := by
  obtain ⟨hcfg, hos, hrest⟩ := h
  have hos' : s.dropOS.os.length ≤ s.cfg.stackDepth := by
    rw [State.dropOS_os, List.length_dropLast]
    omega
  exact ⟨hcfg, hos', hrest⟩

/-! The invariants read none of the fields that these operations write. -/

theorem setPc_wf (h : s.wf) (v : Word) : (s.setPc v).wf := h
theorem setMode_wf (h : s.wf) (m : Mode) : (s.setMode m).wf := h
theorem countStep_wf (h : s.wf) : s.countStep.wf := h
theorem pushRAS_wf (h : s.wf) (v : Word) : (s.pushRAS v).wf := h
theorem dropRAS_wf (h : s.wf) : s.dropRAS.wf := h
theorem emit_wf (h : s.wf) (v : Word) : (s.emit v).wf := h

/-! ### Instructions and steps -/

/-- Every check that an instruction makes before a write is the one that bounds its index or its stack. -/
theorem exec_wf {i : Instr} (hwf : s.wf) (h : exec i s = .next t) : t.wf := by
  cases i with
  | load o1 o2 =>
    obtain ⟨h1, -, pa, -, rfl⟩ := exec_load_eq_next.mp h
    exact setReg_wf hwf h1 _
  | store o1 o2 =>
    obtain ⟨-, -, pa, hpa, rfl⟩ := exec_store_eq_next.mp h
    exact memWrite_keeps_wf hwf (translateAddr_lt hpa) _
  | add o1 o2 =>
    obtain ⟨h1, -, rfl⟩ := exec_add_eq_next.mp h
    exact setReg_wf hwf h1 _
  | sub o1 o2 =>
    obtain ⟨h1, -, rfl⟩ := exec_sub_eq_next.mp h
    exact setReg_wf hwf h1 _
  | mul o1 o2 =>
    obtain ⟨h1, -, rfl⟩ := exec_mul_eq_next.mp h
    exact setReg_wf hwf h1 _
  | div o1 o2 =>
    obtain ⟨h1, -, -, rfl⟩ := exec_div_eq_next.mp h
    exact setReg_wf hwf h1 _
  | jump o1 =>
    obtain ⟨-, pa, -, rfl⟩ := exec_jump_eq_next.mp h
    exact setPc_wf (recordBranch_wf hwf) _
  | jumpIfZero o1 o2 =>
    obtain ⟨-, -, u, hu, rfl⟩ := exec_jumpIfZero_eq_next.mp h
    have hredirected : u.wf := by
      split at hu
      · obtain ⟨pa, -, rfl⟩ := hu
        exact setPc_wf hwf _
      · exact hu ▸ hwf
    split
    · exact hredirected
    · exact clearPred_wf hredirected _
  | push o1 =>
    obtain ⟨-, hroom, rfl⟩ := exec_push_eq_next.mp h
    exact appendOS_wf hwf hroom _
  | pop o1 =>
    obtain ⟨h1, v, -, rfl⟩ := exec_pop_eq_next.mp h
    exact setReg_wf (dropOS_wf hwf) h1 _
  | call o1 =>
    obtain ⟨-, hroom, pa, -, rfl⟩ := exec_call_eq_next.mp h
    exact setPc_wf (pushRAS_wf (appendOS_wf hwf hroom _) _) _
  | ret =>
    obtain ⟨v, -, rfl⟩ := exec_ret_eq_next.mp h
    exact setPc_wf (dropRAS_wf (dropOS_wf hwf)) _
  | sysReg o2 =>
    obtain ⟨-, rfl⟩ := exec_sysReg_eq_next.mp h
    exact emit_wf hwf _
  | sysMem o2 =>
    obtain ⟨pa, -, rfl⟩ := exec_sysMem_eq_next.mp h
    exact emit_wf hwf _
  | cacheRead o1 o2 =>
    obtain ⟨-, hslot, pa, -, rfl⟩ := exec_cacheRead_eq_next.mp h
    exact setCache_wf hwf hslot _
  | cacheWrite o1 o2 =>
    obtain ⟨-, -, pa, hpa, rfl⟩ := exec_cacheWrite_eq_next.mp h
    exact memWrite_keeps_wf hwf (translateAddr_lt hpa) _
  | privileged =>
    obtain ⟨-, rfl⟩ := exec_privileged_eq_next.mp h
    exact hwf
  | enterPrivileged =>
    obtain rfl := exec_enterPrivileged_eq_next.mp h
    exact setMode_wf hwf _
  | exitPrivileged =>
    obtain rfl := exec_exitPrivileged_eq_next.mp h
    exact setMode_wf hwf _
  | inPort o1 o2 =>
    obtain ⟨h1, -, rfl⟩ := exec_inPort_eq_next.mp h
    exact setReg_wf hwf h1 _
  | outPort o1 o2 =>
    obtain ⟨-, hport, rfl⟩ := exec_outPort_eq_next.mp h
    exact setPort_wf hwf hport _
  | int o1 =>
    obtain ⟨-, hroom, rfl⟩ := exec_int_eq_next.mp h
    exact setMode_wf (setPc_wf (appendOS_wf hwf hroom _) _) _

theorem step_wf (hwf : s.wf) (h : step s = .next t) : t.wf := by
  obtain ⟨w, i, u, -, -, hexec, rfl⟩ := step_eq_next.mp h
  have hu : u.wf := exec_wf (setPc_wf hwf _) hexec
  exact countStep_wf hu

end

/-- Settles O44: a step is three writes of the state, and each keeps the invariants: the advance of `pc`, what its
instruction writes, and the count. -/
theorem stepKeepsLaunchInvariants : Obligations.StepKeepsLaunchInvariants :=
  fun _ _ hwf h => step_wf hwf h

/-! ### Construction and host calls (R129, R137) -/

/-- Construction lists no cell but those of the launch parameters. -/
theorem construct_wf {cfg : Config} {l : LaunchParams} (hcfg : cfg.wf) (hl : LaunchFits cfg l) :
    (State.construct cfg l).wf := by
  obtain ⟨hivt, hpred, hprot⟩ := hl
  have hprot' : CellsCanonical false (State.construct cfg l).prot ∧ CellsBelow cfg.memSize (State.construct cfg l).prot := by
    unfold State.construct
    cases cfg.scheme with
    | paged => exact nil_fits
    | flat => exact hprot
  refine ⟨hcfg, Nat.zero_le _, ⟨nil_fits, nil_fits, nil_fits, hpred, nil_fits, nil_fits, nil_fits, hivt, hprot'⟩, ?_,
    fun _ => rfl⟩
  intro hpaged
  have hscheme : cfg.scheme = .paged := hpaged
  simp only [State.construct, hscheme]

section
variable {s : State}

theorem mapPage_wf (h : s.wf) (vp pp : Word) (perms : KindSet) : (hostCall (.mapPage vp pp perms) s).wf := by
  cases hs : s.cfg.scheme with
  | flat => simpa only [hostCall, mapPage_flat hs] using h
  | paged =>
    by_cases hvp : s.cfg.ptSize ≤ vp.toNat
    · rw [hostCall_mapPage_of_fault (mapPage_paged_out_of_range hs hvp)]
      exact h
    · have hin : vp.toNat < s.cfg.ptSize := Nat.not_le.mp hvp
      simpa only [hostCall, mapPage_paged_in_range hs hin] using setPage_wf h hs hin _

theorem clear_wf (h : s.wf) : (clear s).wf := by
  obtain ⟨hcfg, hos, ⟨hx, -, -, hrest⟩, hprot, -⟩ := h
  exact ⟨hcfg, hos, ⟨hx, nil_fits, nil_fits, hrest⟩, hprot, fun _ => rfl⟩

theorem loadFrom_wf (a : Nat) (words : List Word) (h : s.wf) : (loadFrom a words s).1.wf := by
  fun_induction loadFrom a words s with
  | case2 a w ws s pa hpa ih => exact ih (memWrite_keeps_wf h (translateAddr_lt hpa) w)
  | _ => exact h

theorem stepCall_wf (h : s.wf) : (stepCall s).1.wf := by
  unfold stepCall
  split
  next t hstep => exact step_wf h hstep
  all_goals exact h

theorem runLoop_wf (left n : Nat) (h : s.wf) : (runLoop left n s).2.wf := by
  fun_induction runLoop left n s with
  | case3 left n s hpc t hstep ih => exact ih (step_wf h hstep)
  | _ => exact h

theorem hostCall_wf (c : HostCall) (h : s.wf) : (hostCall c s).wf := by
  cases c with
  | mapPage vp pp perms => exact mapPage_wf h vp pp perms
  | clear => exact clear_wf h
  | loadProgram words => exact loadFrom_wf 0 words h
  | step => exact stepCall_wf h
  | run max => exact runLoop_wf max.toNat 0 h

end

/-- Settles O45, by induction on the host calls since construction. -/
theorem reachableStatesAreLaunchStates : Obligations.ReachableStatesAreLaunchStates := by
  intro s hreach
  induction hreach with
  | construct cfg l hcfg hl => exact construct_wf hcfg hl
  | call c s _ ih => exact hostCall_wf c ih

/-- Settles O43: the default configuration meets R7, and the default launch parameters list no cell. -/
theorem resetIsALaunchState : Obligations.ResetIsALaunchState :=
  construct_wf (by decide) ⟨nil_fits, nil_fits, nil_fits⟩

end Sys2Proof.Machine

/-! Proofs of the statements of spec section 70 on the host's own operations: what each iteration of `loadProgram`'s
loop writes, `clear`, and the snapshots. -/

namespace Sys2Proof.Machine

/-! ### The loop of `loadProgram` (R132) -/

/-- The translation that `loadProgram` makes for the word of index `n`. -/
def loadTarget (s : State) (n : Nat) : Except Fault Nat := translateAddr s (BitVec.ofNat 32 n) .write

section
variable {s t : State} {a : Nat} {w : Word} {ws : List Word} {f : Fault}

/-- The first write does not move the targets of the words to come, whose indices count on from it. -/
theorem loadTarget_memWrite_succ (s : State) (pa : Nat) (v : Word) (a j : Nat) :
    loadTarget (s.memWrite pa v) (a + 1 + j) = loadTarget s (a + (j + 1)) := by
  rw [Nat.add_assoc, Nat.add_comm 1 j]
  exact translateAddr_memWrite s pa v _ _

theorem loadFrom_cons_of_ok {pa : Nat} (h : loadTarget s a = .ok pa) :
    loadFrom a (w :: ws) s = loadFrom (a + 1) ws (s.memWrite pa w) := by
  rw [loadTarget] at h
  rw [loadFrom, h]

theorem loadFrom_cons_of_error (h : loadTarget s a = .error f) : loadFrom a (w :: ws) s = (s, some f) := by
  rw [loadTarget] at h
  rw [loadFrom, h]

/-- A load that completes has translated its first address and goes on from the write there. -/
theorem loadFrom_cons_eq_none (h : loadFrom a (w :: ws) s = (t, none)) :
    ∃ pa, loadTarget s a = .ok pa ∧ loadFrom (a + 1) ws (s.memWrite pa w) = (t, none) := by
  cases htarget : loadTarget s a with
  | ok pa => exact ⟨pa, rfl, loadFrom_cons_of_ok htarget ▸ h⟩
  | error f => simp [loadFrom_cons_of_error htarget] at h

theorem loadFrom_targets (h : loadFrom a ws s = (t, none)) {i : Nat} (hi : i < ws.length) :
    ∃ pa, loadTarget s (a + i) = .ok pa := by
  induction ws generalizing a s i with
  | nil => simp at hi
  | cons w ws ih =>
    obtain ⟨pa, hpa, hrest⟩ := loadFrom_cons_eq_none h
    cases i with
    | zero => exact ⟨pa, hpa⟩
    | succ i => exact loadTarget_memWrite_succ s pa w a i ▸ ih hrest (Nat.lt_of_succ_lt_succ hi)

/-- A load writes memory only, whether it completes or stops. -/
theorem loadFrom_frame (a : Nat) (ws : List Word) (s : State) :
    (loadFrom a ws s).1 = { s with mem := (loadFrom a ws s).1.mem } := by
  fun_induction loadFrom a ws s with
  | case2 a w ws s pa hpa ih => rw [ih]; rfl
  | _ => rfl

theorem loadFrom_memRead_untouched (h : loadFrom a ws s = (t, none)) {pa : Nat}
    (huntouched : ∀ j, j < ws.length → loadTarget s (a + j) ≠ .ok pa) : t.memRead pa = s.memRead pa := by
  induction ws generalizing a s with
  | nil =>
    cases h
    rfl
  | cons w ws ih =>
    obtain ⟨pb, hpb, hrest⟩ := loadFrom_cons_eq_none h
    have hne : pa ≠ pb := by
      rintro rfl
      exact huntouched 0 (Nat.succ_pos _) hpb
    have htail : ∀ j, j < ws.length → loadTarget (s.memWrite pb w) (a + 1 + j) ≠ .ok pa := fun j hj =>
      loadTarget_memWrite_succ s pb w a j ▸ huntouched (j + 1) (Nat.succ_lt_succ hj)
    rw [ih hrest htail, memRead_memWrite_ne s w hne]

/-- An address holds the last word written to it. -/
theorem loadFrom_memRead_last (h : loadFrom a ws s = (t, none)) {i pa : Nat} (hw : ws[i]? = some w)
    (hpa : loadTarget s (a + i) = .ok pa)
    (hlast : ∀ j, i < j → j < ws.length → loadTarget s (a + j) ≠ .ok pa) : t.memRead pa = w := by
  induction ws generalizing a s i with
  | nil => simp at hw
  | cons u ws ih =>
    obtain ⟨pb, hpb, hrest⟩ := loadFrom_cons_eq_none h
    cases i with
    | zero =>
      obtain rfl : u = w := by simpa using hw
      obtain rfl : pb = pa := Except.ok.inj (hpb.symm.trans hpa)
      have huntouched : ∀ j, j < ws.length → loadTarget (s.memWrite pb u) (a + 1 + j) ≠ .ok pb := fun j hj =>
        loadTarget_memWrite_succ s pb u a j ▸ hlast (j + 1) (Nat.succ_pos j) (Nat.succ_lt_succ hj)
      rw [loadFrom_memRead_untouched hrest huntouched, memRead_memWrite_same]
    | succ i =>
      have htail : loadTarget (s.memWrite pb u) (a + 1 + i) = .ok pa := loadTarget_memWrite_succ s pb u a i ▸ hpa
      exact ih hrest (by simpa using hw) htail fun j hij hj =>
        loadTarget_memWrite_succ s pb u a j ▸ hlast (j + 1) (Nat.succ_lt_succ hij) (Nat.succ_lt_succ hj)

/-- A load that stops has loaded the words before the one whose address faults. -/
theorem loadFrom_stops (h : loadFrom a ws s = (t, some f)) :
    ∃ k, k < ws.length ∧ loadTarget s (a + k) = .error f ∧ loadFrom a (ws.take k) s = (t, none) := by
  induction ws generalizing a s with
  | nil => simp [loadFrom] at h
  | cons w ws ih =>
    cases htarget : loadTarget s a with
    | error g =>
      obtain ⟨rfl, rfl⟩ : s = t ∧ g = f := by simpa [loadFrom_cons_of_error htarget] using h
      exact ⟨0, Nat.succ_pos _, htarget, rfl⟩
    | ok pa =>
      obtain ⟨k, hk, hfault, hloaded⟩ := ih (loadFrom_cons_of_ok htarget ▸ h)
      refine ⟨k + 1, Nat.succ_lt_succ hk, loadTarget_memWrite_succ s pa w a k ▸ hfault, ?_⟩
      rw [List.take_succ_cons, loadFrom_cons_of_ok htarget, hloaded]

end

/-- Settles O52: each iteration writes one translated word or stops, and no write changes a translation. -/
theorem loadProgramWritesFromAddressZero : Obligations.LoadProgramWritesFromAddressZero := by
  intro ws s t
  constructor
  · intro h
    have hindex (n : Nat) : loadTarget s (0 + n) = translateAddr s (BitVec.ofNat 32 n) .write := by
      rw [Nat.zero_add, loadTarget]
    refine ⟨fun i hi => ?_, fun i w pa hw hpa hlast => ?_, fun pa huntouched => ?_, ?_⟩
    · exact hindex i ▸ loadFrom_targets h hi
    · exact loadFrom_memRead_last h hw (hindex i ▸ hpa) fun j hij hj => hindex j ▸ hlast j hij hj
    · exact loadFrom_memRead_untouched h fun j hj => hindex j ▸ huntouched j hj
    · have hframe := loadFrom_frame 0 ws s
      rwa [← loadProgram, h] at hframe
  · intro f h
    obtain ⟨k, hk, hfault, hloaded⟩ := loadFrom_stops h
    rw [Nat.zero_add] at hfault
    exact ⟨k, hk, hfault, hloaded⟩

/-! ### `clear` and the snapshots (R131, R135) -/

/-- Settles O51: an array with no cell listed reads as its default everywhere. -/
theorem clearEmptiesMemoryAndPageTable : Obligations.ClearEmptiesMemoryAndPageTable :=
  fun _ => ⟨fun _ => rfl, fun _ => rfl, rfl⟩

/-- Settles O56: a snapshot reads one array at each index below its size. -/
theorem snapshotsShowRegistersAndMemory : Obligations.SnapshotsShowRegistersAndMemory := by
  intro s
  refine ⟨by simp [registersSnapshot], by simp [memorySnapshot], fun i hi => ?_, fun a ha => ?_, rfl⟩
  · rw [registersSnapshot, List.getElem?_map, List.getElem?_range hi, Option.map_some]
  · rw [memorySnapshot, List.getElem?_map, List.getElem?_range ha, Option.map_some]

end Sys2Proof.Machine

/-! Proofs of the statements left of spec sections 41 and 44: DIV, SYS 0x02 and CACHE_READ. -/

namespace Sys2Proof.Machine

/-- No quotient of two words is wider than a word, so the ALU's is exact. -/
@[simp] theorem aluDiv_toNat (a b : Word) : (aluDiv a b).toNat = a.toNat / b.toNat := by
  rw [aluDiv, BitVec.toNat_ofNat, Nat.mod_eq_of_lt ((Nat.div_le_self _ _).trans_lt a.isLt)]

/-- Settles O14: the divisor check comes after the register checks, and the one write is that of the quotient. -/
theorem divIsUnsignedAndFaultsOnZero : Obligations.DivIsUnsignedAndFaultsOnZero := by
  intro s o1 o2
  have hcode : defaultOpcodeMap.lookup 0x06 = some .div := by decide
  refine ⟨fun o3 => decode_append hcode o1 o2 o3, exec_eq_invalidRegister_of_two rfl, fun h1 h2 => ⟨?_, ?_⟩⟩
  · exact fun hzero => exec_eq_laterFault_of_two rfl h1 h2 ⟨hzero, rfl⟩
  · exact fun hdivisor => ⟨_, _, exec_div_eq_next.mpr ⟨h1, h2, hdivisor, rfl⟩, onlyRegister_setRegOf s o1 _,
      aluDiv_toNat _ _⟩

/-- Settles O23: the word of the same value as the field is its zero-extension, and its translation for Read is the one
check (D18). -/
theorem sysMemReportsImmediateAddress : Obligations.SysMemReportsImmediateAddress := by
  intro s o2 va hva
  have hsys : defaultOpcodeMap.lookup 0x0D = some .sys := by decide
  obtain rfl : va = o2.setWidth 32 := BitVec.eq_of_toNat_eq (by rw [hva, BitVec.toNat_setWidth_of_le (by decide)])
  refine ⟨fun o3 => decode_append hsys 0x02 o2 o3, fun f hfault => ?_, fun pa hpa => ?_⟩
  · exact exec_eq_laterFault_of_none rfl hfault
  · exact exec_sysMem_eq_next.mpr ⟨pa, hpa, rfl⟩

theorem onlyCacheSlot_setCache (s : State) (k : Byte) (v : Word) : OnlyCacheSlot k v s (s.setCache k.toNat v) :=
  ⟨cacheSlot_setCache_same s k.toNat v, fun _ hn => cacheSlot_setCache_ne s v hn, rfl⟩

/-- Settles O24: the slot check comes after the register check and before the translation for Read (D6), and the one
write is that of the slot (D21). -/
theorem cacheReadCopiesMemoryToSlot : Obligations.CacheReadCopiesMemoryToSlot := by
  intro s o1 o2
  have hcode : defaultOpcodeMap.lookup 0x0E = some .cacheRead := by decide
  refine ⟨fun o3 => decode_append hcode o1 o2 o3, exec_eq_invalidRegister_of_one rfl, fun h2 => ⟨?_, ?_⟩⟩
  · exact fun hslot => exec_eq_laterFault_of_one rfl h2 (.inl ⟨hslot, rfl⟩)
  · exact fun hslot => ⟨fun f hfault => exec_eq_laterFault_of_one rfl h2 (.inr ⟨hslot, hfault⟩),
      fun pa hpa => ⟨_, exec_cacheRead_eq_next.mpr ⟨h2, hslot, pa, hpa, rfl⟩,
        onlyCacheSlot_setCache s o1 (s.memRead pa)⟩⟩

end Sys2Proof.Machine
